-- ==== Sys2Proof/Word.lean ====
section
/-! DEFINITION. The words of the machine: the sizes the spec gives its values (00_scope.md section 6, 10_state.md,
30_encoding.md R61). -/

namespace Sys2Proof

/-- A byte: a general register, a timer, a memory cell (R10, R16, R40). -/
abbrev Byte := BitVec 8

/-- A 16-bit word: PC, I, a return address, an instruction (R12, R13, R15, R60). -/
abbrev Word := BitVec 16

/-- A nibble: a register number, the row count N, the class (R61). -/
abbrev Nibble := BitVec 4

/-- A 12-bit immediate address, the field NNN (R61). -/
abbrev Addr12 := BitVec 12

/-- The number of bytes of memory, MEM_SIZE (R5). -/
def memSize : Nat := 4096

/-- The load address of a ROM and the reset value of PC, ROM_BASE (R5). -/
def romBase : Nat := 0x200

/-- The largest ROM, ROM_MAX_LEN (R5). -/
def romMaxLen : Nat := 3584

/-- The first address of the font, FONT_BASE (R5). -/
def fontBase : Nat := 0x050

/-- The number of font bytes, FONT_LEN (R5). -/
def fontLen : Nat := 80

/-- The return stack's depth, STACK_DEPTH (R5). -/
def stackDepth : Nat := 16

/-- A register number is below NUM_V = 16 (R5, R10). -/
theorem nibble_lt (r : Nibble) : r.toNat < 16 := r.isLt

end Sys2Proof
end

