-- ==== Sys2Proof/Config.lean ====
section
/-! DEFINITION. What the spec leaves to an implementation (00_scope.md R6): the font table, the reading of the words
5XYN and 9XYN, and the free value, the random byte. -/

namespace Sys2Proof

/-- FONT, the 80 glyph bytes at 0x050 to 0x09F, five a glyph (R27).  PRESUMED (log entry 5): the document never lists
them; this is the default table of R27, which the spec marks as general knowledge.  Unsafe for claims about glyph pixels. -/
def Config.font : List Byte :=
  [0xF0, 0x90, 0x90, 0x90, 0xF0,  0x20, 0x60, 0x20, 0x20, 0x70,  0xF0, 0x10, 0xF0, 0x80, 0xF0,  0xF0, 0x10, 0xF0, 0x10, 0xF0]
  ++ [0x90, 0x90, 0xF0, 0x10, 0x10,  0xF0, 0x80, 0xF0, 0x10, 0xF0,  0xF0, 0x80, 0xF0, 0x90, 0xF0,  0xF0, 0x10, 0x20, 0x40, 0x40]
  ++ [0xF0, 0x90, 0xF0, 0x90, 0xF0,  0xF0, 0x90, 0xF0, 0x10, 0xF0,  0xF0, 0x90, 0xF0, 0x90, 0x90,  0xE0, 0x90, 0xE0, 0x90, 0xE0]
  ++ [0xF0, 0x80, 0x80, 0x80, 0xF0,  0xE0, 0x90, 0x90, 0x90, 0xE0,  0xF0, 0x80, 0xF0, 0x80, 0xF0,  0xF0, 0x80, 0xF0, 0x80, 0x80]

/-- STRICT_5_9 (R6, R67): whether 5XYN and 9XYN with N other than 0 are refused.  The spec's default, false (its decision
D8; log entry 7). -/
def Config.strict59 : Bool := false

/-- The free value `rnd` (R131, R249, U9): the byte the k-th CXNN to be executed draws from its source outside the
architectural state.  It has no body, so a claim about it holds for every sequence of bytes (log entry 4). -/
opaque Config.rnd : Nat → Byte

end Sys2Proof
end

