-- ==== Sys2Proof/Syntax.lean ====
section
/-! DEFINITION. The instructions: one constructor for each of the 34 rows of spec/opcode_table.json (30_encoding.md
R65), its operands the fields of R61 that its format has (R62). -/

namespace Sys2Proof

/-- An instruction.  `x` and `y` are the register numbers X and Y, `n`, `nn`, `nnn` the immediates.  `seReg` and `sneReg`
keep the low nibble `n`, `shr` and `shl` the nibble `y`, which no rule reads (R67, R128, R130), so that an instruction
still says its whole word. -/
inductive Instr where
  /-- 00E0 CLS (R170) -/
  | cls
  /-- 00EE RET (R101) -/
  | ret
  /-- 1NNN JP NNN (R100) -/
  | jp (nnn : Addr12)
  /-- 2NNN CALL NNN (R103) -/
  | call (nnn : Addr12)
  /-- 3XNN SE Vx, NN (R104) -/
  | seImm (x : Nibble) (nn : Byte)
  /-- 4XNN SNE Vx, NN (R105) -/
  | sneImm (x : Nibble) (nn : Byte)
  /-- 5XYN SE Vx, Vy (R106); `n` is ignored (R67) -/
  | seReg (x y n : Nibble)
  /-- 6XNN LD Vx, NN (R120) -/
  | ldImm (x : Nibble) (nn : Byte)
  /-- 7XNN ADD Vx, NN (R121) -/
  | addImm (x : Nibble) (nn : Byte)
  /-- 8XY0 LD Vx, Vy (R122) -/
  | ldReg (x y : Nibble)
  /-- 8XY1 OR Vx, Vy (R123) -/
  | orReg (x y : Nibble)
  /-- 8XY2 AND Vx, Vy (R124) -/
  | andReg (x y : Nibble)
  /-- 8XY3 XOR Vx, Vy (R125) -/
  | xorReg (x y : Nibble)
  /-- 8XY4 ADD Vx, Vy (R126) -/
  | addReg (x y : Nibble)
  /-- 8XY5 SUB Vx, Vy (R127) -/
  | subReg (x y : Nibble)
  /-- 8XY6 SHR Vx (R128); `y` is ignored -/
  | shr (x y : Nibble)
  /-- 8XY7 SUBN Vx, Vy (R129) -/
  | subnReg (x y : Nibble)
  /-- 8XYE SHL Vx (R130); `y` is ignored -/
  | shl (x y : Nibble)
  /-- 9XYN SNE Vx, Vy (R107); `n` is ignored (R67) -/
  | sneReg (x y n : Nibble)
  /-- ANNN LD I, NNN (R150) -/
  | ldI (nnn : Addr12)
  /-- BNNN JP V0, NNN (R102) -/
  | jpV0 (nnn : Addr12)
  /-- CXNN RND Vx, NN (R131) -/
  | rnd (x : Nibble) (nn : Byte)
  /-- DXYN DRW Vx, Vy, N (R171) -/
  | drw (x y n : Nibble)
  /-- EX9E SKP Vx (R180) -/
  | skp (x : Nibble)
  /-- EXA1 SKNP Vx (R181) -/
  | sknp (x : Nibble)
  /-- FX07 LD Vx, DT (R183) -/
  | ldVxDt (x : Nibble)
  /-- FX0A LD Vx, K (R182) -/
  | ldVxK (x : Nibble)
  /-- FX15 LD DT, Vx (R184) -/
  | ldDtVx (x : Nibble)
  /-- FX18 LD ST, Vx (R185) -/
  | ldStVx (x : Nibble)
  /-- FX1E ADD I, Vx (R151) -/
  | addI (x : Nibble)
  /-- FX29 LD F, Vx (R152) -/
  | ldF (x : Nibble)
  /-- FX33 LD B, Vx (R153) -/
  | ldB (x : Nibble)
  /-- FX55 LD [I], Vx (R154) -/
  | stRegs (x : Nibble)
  /-- FX65 LD Vx, [I] (R155) -/
  | ldRegs (x : Nibble)
  deriving DecidableEq, Repr

end Sys2Proof
end

