-- ==== Sys2Proof/WellFormed.lean ====
section
/-! DEFINITION. Which instructions a decoder may deliver (30_encoding.md R67).  Every operand has exactly the width of
its field, so the one check left is the low nibble of 5XYN and 9XYN under the strict reading. -/

namespace Sys2Proof

/-- Whether an instruction is well formed under the reading `strict` of R67: with STRICT_5_9 set, only N = 0 is. -/
def Instr.wellFormed (strict : Bool) : Instr → Bool
  | .seReg _ _ n => !strict || n == 0
  | .sneReg _ _ n => !strict || n == 0
  | .cls => true
  | .ret => true
  | .jp _ => true
  | .call _ => true
  | .seImm _ _ => true
  | .sneImm _ _ => true
  | .ldImm _ _ => true
  | .addImm _ _ => true
  | .ldReg _ _ => true
  | .orReg _ _ => true
  | .andReg _ _ => true
  | .xorReg _ _ => true
  | .addReg _ _ => true
  | .subReg _ _ => true
  | .shr _ _ => true
  | .subnReg _ _ => true
  | .shl _ _ => true
  | .ldI _ => true
  | .jpV0 _ => true
  | .rnd _ _ => true
  | .drw _ _ _ => true
  | .skp _ => true
  | .sknp _ => true
  | .ldVxDt _ => true
  | .ldVxK _ => true
  | .ldDtVx _ => true
  | .ldStVx _ => true
  | .addI _ => true
  | .ldF _ => true
  | .ldB _ => true
  | .stRegs _ => true
  | .ldRegs _ => true

/-- Well formed on this machine, whose reading of R67 is `Config.strict59`. -/
abbrev Instr.WellFormed (i : Instr) : Prop := i.wellFormed Config.strict59 = true

end Sys2Proof
end

