-- ==== Sys2Proof/Decode.lean ====
section
/-! DEFINITION. The decoder and the encoder (30_encoding.md R60 to R71).  Decoding is in the two levels of R64: the six
fields of R61, then the class with the secondary key of classes 0, 8, E and F. -/

namespace Sys2Proof

/-- Why a word, or a list of bytes, is no instruction. -/
inductive Reject where
  /-- fewer than two bytes: no word (R60) -/
  | tooShort
  /-- class 0 with NNN neither 0E0 nor 0EE (R66) -/
  | illegalClass0
  /-- class 8 with N one of 8 to D or F (R66) -/
  | illegalClass8
  /-- class E with NN neither 9E nor A1 (R66) -/
  | illegalClassE
  /-- class F with none of the nine NN (R66) -/
  | illegalClassF
  /-- 5XYN or 9XYN with N other than 0, under STRICT_5_9 only (R67) -/
  | strict59
  deriving DecidableEq, Repr

/-- The six fields of a word (R61). -/
structure Fields where
  cls : Nibble
  x : Nibble
  y : Nibble
  n : Nibble
  nn : Byte
  nnn : Addr12
  deriving DecidableEq, Repr

/-- The field extraction, total on all 65536 words (R61). -/
def fieldsOf (w : Word) : Fields where
  cls := w.extractLsb' 12 4
  x := w.extractLsb' 8 4
  y := w.extractLsb' 4 4
  n := w.extractLsb' 0 4
  nn := w.extractLsb' 0 8
  nnn := w.extractLsb' 0 12

/-- The word of two bytes, the first the high one (R42). -/
def wordOf (hi lo : Byte) : Word := hi ++ lo

/-- The two bytes of a word in memory order: the high byte at the lower address (R42). -/
def bytesOf (w : Word) : List Byte := [w.extractLsb' 8 8, w.extractLsb' 0 8]

/-- Secondary dispatch of class 0 on NNN (R64, R66). -/
def select0 (f : Fields) : Except Reject Instr :=
  if f.nnn = 0x0E0 then .ok .cls
  else if f.nnn = 0x0EE then .ok .ret
  else .error .illegalClass0

/-- Secondary dispatch of class 8 on N (R64, R66). -/
def select8 (f : Fields) : Except Reject Instr :=
  match f.n.toNat with
  | 0x0 => .ok (.ldReg f.x f.y)
  | 0x1 => .ok (.orReg f.x f.y)
  | 0x2 => .ok (.andReg f.x f.y)
  | 0x3 => .ok (.xorReg f.x f.y)
  | 0x4 => .ok (.addReg f.x f.y)
  | 0x5 => .ok (.subReg f.x f.y)
  | 0x6 => .ok (.shr f.x f.y)
  | 0x7 => .ok (.subnReg f.x f.y)
  | 0xE => .ok (.shl f.x f.y)
  | _ => .error .illegalClass8

/-- Secondary dispatch of class E on NN (R64, R66). -/
def selectE (f : Fields) : Except Reject Instr :=
  if f.nn = 0x9E then .ok (.skp f.x)
  else if f.nn = 0xA1 then .ok (.sknp f.x)
  else .error .illegalClassE

/-- Secondary dispatch of class F on NN (R64, R66). -/
def selectF (f : Fields) : Except Reject Instr :=
  if f.nn = 0x07 then .ok (.ldVxDt f.x)
  else if f.nn = 0x0A then .ok (.ldVxK f.x)
  else if f.nn = 0x15 then .ok (.ldDtVx f.x)
  else if f.nn = 0x18 then .ok (.ldStVx f.x)
  else if f.nn = 0x1E then .ok (.addI f.x)
  else if f.nn = 0x29 then .ok (.ldF f.x)
  else if f.nn = 0x33 then .ok (.ldB f.x)
  else if f.nn = 0x55 then .ok (.stRegs f.x)
  else if f.nn = 0x65 then .ok (.ldRegs f.x)
  else .error .illegalClassF

/-- Classes 5 and 9 have no secondary dispatch: N is not examined, unless the strict reading is chosen (R67). -/
def selectXY (strict : Bool) (f : Fields) (i : Instr) : Except Reject Instr :=
  if strict && f.n != 0 then .error .strict59 else .ok i

/-- Dispatch on the class (R64, R65). -/
def select (strict : Bool) (f : Fields) : Except Reject Instr :=
  match f.cls.toNat with
  | 0x0 => select0 f
  | 0x1 => .ok (.jp f.nnn)
  | 0x2 => .ok (.call f.nnn)
  | 0x3 => .ok (.seImm f.x f.nn)
  | 0x4 => .ok (.sneImm f.x f.nn)
  | 0x5 => selectXY strict f (.seReg f.x f.y f.n)
  | 0x6 => .ok (.ldImm f.x f.nn)
  | 0x7 => .ok (.addImm f.x f.nn)
  | 0x8 => select8 f
  | 0x9 => selectXY strict f (.sneReg f.x f.y f.n)
  | 0xA => .ok (.ldI f.nnn)
  | 0xB => .ok (.jpV0 f.nnn)
  | 0xC => .ok (.rnd f.x f.nn)
  | 0xD => .ok (.drw f.x f.y f.n)
  | 0xE => selectE f
  | _ => selectF f

/-- The decoder of one word (R61, R64). -/
def decodeWord (strict : Bool) (w : Word) : Except Reject Instr := select strict (fieldsOf w)

/-- The decoder of a list of bytes: the instruction its first two bytes hold, with the rest (R42, R60). -/
def decode : List Byte → Except Reject (Instr × List Byte)
  | hi :: lo :: rest => (decodeWord Config.strict59 (wordOf hi lo)).map (·, rest)
  | _ => .error .tooShort

/-- A word from its four nibbles, the class first (R71). -/
def ofNibbles (c x y n : Nibble) : Word := c ++ x ++ y ++ n

/-- A word of format ADDR: class, NNN (R62). -/
def ofAddr (c : Nibble) (nnn : Addr12) : Word := c ++ nnn

/-- A word of format XNN or XSUB: class, X, NN or the sub-opcode (R62). -/
def ofXnn (c x : Nibble) (nn : Byte) : Word := c ++ x ++ nn

/-- The word of an instruction, from the patterns of R65. -/
def encode : Instr → Word
  | .cls => ofAddr 0x0 0x0E0
  | .ret => ofAddr 0x0 0x0EE
  | .jp nnn => ofAddr 0x1 nnn
  | .call nnn => ofAddr 0x2 nnn
  | .seImm x nn => ofXnn 0x3 x nn
  | .sneImm x nn => ofXnn 0x4 x nn
  | .seReg x y n => ofNibbles 0x5 x y n
  | .ldImm x nn => ofXnn 0x6 x nn
  | .addImm x nn => ofXnn 0x7 x nn
  | .ldReg x y => ofNibbles 0x8 x y 0x0
  | .orReg x y => ofNibbles 0x8 x y 0x1
  | .andReg x y => ofNibbles 0x8 x y 0x2
  | .xorReg x y => ofNibbles 0x8 x y 0x3
  | .addReg x y => ofNibbles 0x8 x y 0x4
  | .subReg x y => ofNibbles 0x8 x y 0x5
  | .shr x y => ofNibbles 0x8 x y 0x6
  | .subnReg x y => ofNibbles 0x8 x y 0x7
  | .shl x y => ofNibbles 0x8 x y 0xE
  | .sneReg x y n => ofNibbles 0x9 x y n
  | .ldI nnn => ofAddr 0xA nnn
  | .jpV0 nnn => ofAddr 0xB nnn
  | .rnd x nn => ofXnn 0xC x nn
  | .drw x y n => ofNibbles 0xD x y n
  | .skp x => ofXnn 0xE x 0x9E
  | .sknp x => ofXnn 0xE x 0xA1
  | .ldVxDt x => ofXnn 0xF x 0x07
  | .ldVxK x => ofXnn 0xF x 0x0A
  | .ldDtVx x => ofXnn 0xF x 0x15
  | .ldStVx x => ofXnn 0xF x 0x18
  | .addI x => ofXnn 0xF x 0x1E
  | .ldF x => ofXnn 0xF x 0x29
  | .ldB x => ofXnn 0xF x 0x33
  | .stRegs x => ofXnn 0xF x 0x55
  | .ldRegs x => ofXnn 0xF x 0x65

/-- The bytes of an instruction as memory holds them (R42). -/
def encodeBytes (i : Instr) : List Byte := bytesOf (encode i)

/-- A row of the opcode map: a word w is the row's where w AND mask = bits (R65; `bits` is the table's match). -/
structure OpcodeRow where
  mask : Word
  bits : Word
  deriving DecidableEq, Repr

/-- The row of an instruction in the opcode map (R65). -/
def rowOf : Instr → OpcodeRow
  | .cls => ⟨0xFFFF, 0x00E0⟩
  | .ret => ⟨0xFFFF, 0x00EE⟩
  | .jp _ => ⟨0xF000, 0x1000⟩
  | .call _ => ⟨0xF000, 0x2000⟩
  | .seImm _ _ => ⟨0xF000, 0x3000⟩
  | .sneImm _ _ => ⟨0xF000, 0x4000⟩
  | .seReg _ _ _ => ⟨0xF000, 0x5000⟩
  | .ldImm _ _ => ⟨0xF000, 0x6000⟩
  | .addImm _ _ => ⟨0xF000, 0x7000⟩
  | .ldReg _ _ => ⟨0xF00F, 0x8000⟩
  | .orReg _ _ => ⟨0xF00F, 0x8001⟩
  | .andReg _ _ => ⟨0xF00F, 0x8002⟩
  | .xorReg _ _ => ⟨0xF00F, 0x8003⟩
  | .addReg _ _ => ⟨0xF00F, 0x8004⟩
  | .subReg _ _ => ⟨0xF00F, 0x8005⟩
  | .shr _ _ => ⟨0xF00F, 0x8006⟩
  | .subnReg _ _ => ⟨0xF00F, 0x8007⟩
  | .shl _ _ => ⟨0xF00F, 0x800E⟩
  | .sneReg _ _ _ => ⟨0xF000, 0x9000⟩
  | .ldI _ => ⟨0xF000, 0xA000⟩
  | .jpV0 _ => ⟨0xF000, 0xB000⟩
  | .rnd _ _ => ⟨0xF000, 0xC000⟩
  | .drw _ _ _ => ⟨0xF000, 0xD000⟩
  | .skp _ => ⟨0xF0FF, 0xE09E⟩
  | .sknp _ => ⟨0xF0FF, 0xE0A1⟩
  | .ldVxDt _ => ⟨0xF0FF, 0xF007⟩
  | .ldVxK _ => ⟨0xF0FF, 0xF00A⟩
  | .ldDtVx _ => ⟨0xF0FF, 0xF015⟩
  | .ldStVx _ => ⟨0xF0FF, 0xF018⟩
  | .addI _ => ⟨0xF0FF, 0xF01E⟩
  | .ldF _ => ⟨0xF0FF, 0xF029⟩
  | .ldB _ => ⟨0xF0FF, 0xF033⟩
  | .stRegs _ => ⟨0xF0FF, 0xF055⟩
  | .ldRegs _ => ⟨0xF0FF, 0xF065⟩

/-- The word of an instruction whose bits, numbered as spec/opcode_table.json numbers them, are `w`; bits above `nbits`
are 0.  Every instruction is one 16-bit word (R60), bit 0 its least significant. -/
def tableWord (nbits w : Nat) : Word := BitVec.ofNat 16 (w % 2 ^ nbits)

/-- What the decoder reads from an instruction laid out in memory order whose table bits are `w`. -/
def decodeTableWord (nbits w : Nat) : Option Instr :=
  match decode (bytesOf (tableWord nbits w)) with
  | .ok (i, _) => some i
  | .error _ => none

end Sys2Proof
end

