-- ==== Sys2Proof/Machine/State.lean ====
section
/-! DEFINITION. Everything the spec gives the machine (10_state.md), as plain data; the events it takes
(46_host_ops.md, 60_exceptions.md) and gives; the state after power-on (R30). -/

namespace Sys2Proof.Machine

/-- The seven reasons of a halt (R230).  All but `breakpoint` are faults. -/
inductive HaltReason where
  /-- a debug stop: PC in BP and LASTBP other than PC (R82) -/
  | breakpoint
  /-- PC > 0xFFF at the start of a cycle (R81, R233) -/
  | overflow
  /-- the fetched word is no instruction (R86, R234) -/
  | illegal
  /-- an access above 0xFFF, in fetch, DXYN, FX33, FX55 or FX65 (R41, R235) -/
  | memrange
  /-- CALL with SP >= 16 (R103, R235) -/
  | stackoverflow
  /-- RET with SP = 0 or SP > 16 (R101, R235) -/
  | stackunderflow
  /-- EX9E or EXA1 with VX > 15 (R180, R181, R235) -/
  | keyrange
  deriving DecidableEq, Repr

/-- SCHED, the scheduler's state (R20, R253). -/
inductive Sched where
  | idle
  | running
  | halted (r : HaltReason)
  deriving DecidableEq, Repr

/-- The output events of the block (R217): to the display sink, the audio sink and the host. -/
inductive OutEvent where
  /-- 00E0 cleared the framebuffer (R170) -/
  | clear
  /-- DXYN toggled the cell of column x and row y; `on` is its new value (R171) -/
  | pixel (x y : Nat) (on : Bool)
  /-- a timer tick left ST above 0 (R243, R244) -/
  | toneOn
  /-- a timer tick took ST to 0 (R243, R244) -/
  | toneOff
  /-- SCHED became Halted(reason) (R232) -/
  | halt (r : HaltReason)
  deriving DecidableEq, Repr

/-- One write of a register, a stack entry, a memory byte or a timer: what the Change-Notification Bus may report
(R216; log entry 11). -/
inductive Notice where
  | pc
  | sp
  | i
  | v (r : Nat)
  | stack (k : Nat)
  | mem (a : Nat)
  | dt
  | st
  deriving DecidableEq, Repr

/-- The operations of the host (46_host_ops.md, R201 to R213). -/
inductive HostOp where
  /-- load a program at 0x200 (R201) -/
  | loadROM (bytes : List Byte)
  /-- reinitialise, for a ROM of the given size (R202) -/
  | reset (romSize : Nat)
  /-- start both activities, the instruction rate in Hz (R203) -/
  | run (rateHz : Rat)
  /-- cancel both activities (R204) -/
  | stop
  /-- replace the instruction rate (R205) -/
  | changeSpeed (newRateHz : Rat)
  /-- one `cycle()` while not running (R206) -/
  | step
  /-- a key goes down or up (R207) -/
  | setKeyDown (key : Nat) (isDown : Bool)
  /-- insert a breakpoint (R208) -/
  | bpSet (addr : Int)
  /-- remove a breakpoint (R209) -/
  | bpRemove (addr : Int)
  /-- remove every breakpoint (R210) -/
  | bpClear
  /-- read the breakpoint set (R211) -/
  | bpList
  /-- read one byte through the memory accessor (R213) -/
  | peek (addr : Nat)
  deriving DecidableEq, Repr

/-- The input events: what one atomic action can be (R7, D22). -/
inductive Input where
  /-- a firing of the instruction-cycle activity (R80) -/
  | cycleTick
  /-- a firing of the 60 Hz activity (R243) -/
  | timerTick
  /-- a host operation (R200) -/
  | host (op : HostOp)
  deriving DecidableEq, Repr

/-- Why an operation was rejected, with the offending number (R214). -/
inductive Rejection where
  /-- a ROM of `len` bytes, more than 3584 (R201) -/
  | romTooLong (len : Nat)
  /-- a breakpoint address below 0x200 or above ROMMAX (R208, R209) -/
  | outOfRange (addr : Int)
  /-- no breakpoint at that address (R209) -/
  | notFound (addr : Int)
  deriving DecidableEq, Repr

/-- What a host operation returned (log entry 12). -/
inductive HostResult where
  /-- the operation was rejected (R214) -/
  | rejected (r : Rejection)
  /-- STEP_BUSY: `step()` while running (R206, D17) -/
  | stepBusy
  /-- `step()`: PC after the cycle (R206) -/
  | steppedTo (pc : Word)
  /-- `list()`: the breakpoint set (R211) -/
  | breakpoints (addrs : List Nat)
  /-- the memory accessor: a byte (R213) -/
  | byte (b : Byte)
  deriving DecidableEq, Repr

/-- The duties of the host whose breach the model refuses (R218, U12, U13). -/
inductive HostDuty where
  /-- `run` is not issued while Running -/
  | notRunTwice
  /-- `rateHz` and `newRateHz` are positive -/
  | positiveRate
  /-- `setKeyDown` is given a key 0 to 15 -/
  | keyInRange
  /-- `reset` is given at most 3584 -/
  | romSizeInRange
  /-- the memory accessor is given an address 0 to 0xFFF (R213) -/
  | peekInRange
  deriving DecidableEq, Repr

/-- Faults that stop a step with no next state.  There are none: every fault of this hardware is a halt, and the spec
says what state each leaves (R230 to R236), so each is a next state.  No constructor, hence nobody raises one: safe. -/
inductive Fault where
  deriving DecidableEq, Repr

/-- Refusals: what the model gives no next state for. -/
inductive Refusal where
  /-- An instruction without a meaning yet, raised by `exec` alone.  Safe. -/
  | notModelled (mnemonic : String)
  /-- A host operation that breaks a duty of R218, raised by `hostOp`: the spec gives the model no such move (U12, U13;
  log entry 13).  Safe. -/
  | hostDuty (d : HostDuty)
  /-- A word 5XYN or 9XYN with N other than 0, raised by `cycle` only where `Config.strict59` is true (R67; log entry 7).
  Safe. -/
  | strict59
  deriving DecidableEq, Repr

/-- Memory: the bytes that differ from what an unlisted address reads as, by rising address (R17, R40). -/
abbrev Memory := List Host.Cell

/-- The state of the machine (10_state.md), then the model's own fields. -/
structure State where
  /-- V0 to VF; VF is the flag register (R10, R11) -/
  v : Vector Byte 16
  /-- the index register (R12) -/
  i : Word
  /-- the program counter (R13) -/
  pc : Word
  /-- the stack pointer, the number of return addresses held (R14) -/
  sp : Byte
  /-- the return stack (R15) -/
  stack : Vector Word 16
  /-- the delay timer (R16) -/
  dt : Byte
  /-- the sound timer (R16) -/
  st : Byte
  /-- the memory (R17) -/
  mem : Memory
  /-- the framebuffer, rows of cells, true for 1 (R18) -/
  fb : Vector (Vector Bool 64) 32
  /-- the key-down flags (R19) -/
  key : Vector Bool 16
  /-- the scheduler state (R20) -/
  sched : Sched
  /-- the instruction rate last given, in Hz (R21) -/
  rate : Rat
  /-- the breakpoint set, ascending (R22) -/
  bp : List Nat
  /-- the last breakpoint halted at (R23) -/
  lastBp : Option Word
  /-- the upper bound of breakpoint addresses (R24) -/
  romMax : Nat
  /-- the model's own: the events still to come, oldest first (R6 `schedule`; log entry 1) -/
  inputs : List Input
  /-- the model's own: how many random bytes have been drawn (log entry 4) -/
  rndCount : Nat
  /-- the model's own: every fault seen, oldest first (R239; log entry 9) -/
  faults : List HaltReason
  /-- the model's own: the output stream, oldest first (R217; log entry 10) -/
  out : List OutEvent
  /-- the model's own: the writes made, oldest first (R216; log entry 11) -/
  trace : List Notice
  /-- the model's own: what host operations returned, oldest first (log entry 12) -/
  results : List HostResult
  deriving DecidableEq, Repr

/-- The state after power-on (R30, R270): every register, the stack, the timers, the framebuffer and the keys 0, PC at
0x200, memory as an unlisted address reads (0, and the font), Idle, no breakpoints.  `rate` 0 is the model's (log entry
6), as are the empty lists and the 0 of the model's own fields. -/
def State.reset : State where
  v := Vector.replicate 16 0
  i := 0
  pc := 0x200
  sp := 0
  stack := Vector.replicate 16 0
  dt := 0
  st := 0
  mem := []
  fb := Vector.replicate 32 (Vector.replicate 64 false)
  key := Vector.replicate 16 false
  sched := .idle
  rate := 0
  bp := []
  lastBp := none
  romMax := 0x200
  inputs := []
  rndCount := 0
  faults := []
  out := []
  trace := []
  results := []

end Sys2Proof.Machine
end

