-- ==== Sys2Proof/Machine/Ops.lean ====
section
/-! DEFINITION. The named operations over memory and the registers (10_state.md, 20_memory.md), taking a halt, the
machine's one exceptional event (60_exceptions.md R232), and leaving it (R238).  Every read and write of the state by an
instruction, a tick or the host goes through these. -/

namespace Sys2Proof.Machine

/-- What a meaning answers. -/
abbrev Result := Host.Outcome State Fault Refusal

/-! ### Memory -/

/-- What an unlisted address reads as: the contents after power-on, FONT at 0x050 to 0x09F and 0 elsewhere (R30, R45). -/
def unlisted (a : Nat) : Byte :=
  if fontBase ≤ a then Config.font.getD (a - fontBase) 0 else 0

/-- The byte at an address (R40). -/
def Memory.get : Memory → Nat → Byte
  | [], a => unlisted a
  | (c, b) :: rest, a => if c = a then b else Memory.get rest a

/-- List a byte at an address, in its place by rising address. -/
def Memory.insert : Memory → Nat → Byte → Memory
  | [], a, b => [(a, b)]
  | (c, d) :: rest, a, b =>
    if a < c then (a, b) :: (c, d) :: rest
    else if a = c then (a, b) :: rest
    else (c, d) :: Memory.insert rest a b

/-- Store one byte, keeping the canonical form: an address that holds what it would read as unlisted is not listed. -/
def Memory.put (m : Memory) (a : Nat) (b : Byte) : Memory :=
  if b = unlisted a then m.filter (fun c => c.1 != a) else m.insert a b

/-- Store bytes at rising addresses, the first at `a` (R41, R44). -/
def Memory.putAll : Memory → Nat → List Byte → Memory
  | m, _, [] => m
  | m, a, b :: bs => Memory.putAll (m.put a b) (a + 1) bs

/-- The canonical form: strictly rising addresses, all below MEM_SIZE, none holding what an unlisted address reads as. -/
abbrev Memory.wf (m : Memory) : Prop :=
  m.Pairwise (fun c d => c.1 < d.1) ∧ ∀ c ∈ m, c.1 < memSize ∧ c.2 ≠ unlisted c.1

/-- Whether the `n` bytes at `a` all exist; an access of no byte asks for none (R41, R171 corner case 2).  Addresses are
never wrapped. -/
def inRange (a n : Nat) : Bool := n == 0 || decide (a + n ≤ memSize)

/-- MemRead(a, n): the bytes, lowest address first, or none where it raises MemRange (R41). -/
def Memory.read (m : Memory) (a n : Nat) : Option (List Byte) :=
  if inRange a n then some ((List.range n).map (fun k => m.get (a + k))) else none

/-! ### Registers, stack, timers, framebuffer, keys

A write that the Change-Notification Bus may report is noted in `trace` (R216). -/

/-- `V[r]` (R10). -/
def State.getV (s : State) (r : Nibble) : Byte := s.v[r.toNat]'(nibble_lt r)

/-- `V[r] <- b` (R10). -/
def State.setV (s : State) (r : Nibble) (b : Byte) : State :=
  { s with v := s.v.set r.toNat b (nibble_lt r), trace := s.trace ++ [.v r.toNat] }

/-- `V[k] <- b0, V[k+1] <- b1, ...` in that order (R155). -/
def State.setVs : State → Nat → List Byte → State
  | s, _, [] => s
  | s, k, b :: bs => State.setVs (s.setV (BitVec.ofNat 4 k) b) (k + 1) bs

/-- `I <- w` (R12). -/
def State.setI (s : State) (w : Word) : State := { s with i := w, trace := s.trace ++ [.i] }

/-- `PC <- w` (R13). -/
def State.setPc (s : State) (w : Word) : State := { s with pc := w, trace := s.trace ++ [.pc] }

/-- `SP <- b` (R14). -/
def State.setSp (s : State) (b : Byte) : State := { s with sp := b, trace := s.trace ++ [.sp] }

/-- `STACK[k] <- w` (R15). -/
def State.setStack (s : State) (k : Fin 16) (w : Word) : State :=
  { s with stack := s.stack.set k.val w k.isLt, trace := s.trace ++ [.stack k.val] }

/-- `DT <- b` (R16). -/
def State.setDt (s : State) (b : Byte) : State := { s with dt := b, trace := s.trace ++ [.dt] }

/-- `ST <- b` (R16). -/
def State.setSt (s : State) (b : Byte) : State := { s with st := b, trace := s.trace ++ [.st] }

/-- Store bytes at rising addresses that are known to exist (R41, R44). -/
def State.storeBytes (s : State) (a : Nat) (bs : List Byte) : State :=
  { s with
    mem := s.mem.putAll a bs
    trace := s.trace ++ (List.range bs.length).map (fun k => .mem (a + k)) }

/-- MemWrite: the whole range is checked before the first byte is written; none where it raises MemRange (R41). -/
def State.memWrite (s : State) (a : Nat) (bs : List Byte) : Option State :=
  if inRange a bs.length then some (s.storeBytes a bs) else none

/-- `FB[y][x]` (R18). -/
def State.cell (s : State) (x : Fin 64) (y : Fin 32) : Bool := (s.fb[y.val]'y.isLt)[x.val]'x.isLt

/-- `FB[y][x] <- FB[y][x] XOR 1` (R171). -/
def State.toggle (s : State) (x : Fin 64) (y : Fin 32) : State :=
  { s with fb := s.fb.set y.val ((s.fb[y.val]'y.isLt).set x.val (!s.cell x y) x.isLt) y.isLt }

/-- Every cell 0 (R170). -/
def State.clearFb (s : State) : State := { s with fb := Vector.replicate 32 (Vector.replicate 64 false) }

/-- `KEY[k] <- isDown` (R19, R207). -/
def State.setKey (s : State) (k : Fin 16) (isDown : Bool) : State :=
  { s with key := s.key.set k.val isDown k.isLt }

/-- `emit e` (00_scope.md section 6). -/
def State.emit (s : State) (e : OutEvent) : State := { s with out := s.out ++ [e] }

/-- The random byte of this CXNN (R131). -/
def State.rndByte (s : State) : Byte := Config.rnd s.rndCount

/-- The source has given its byte: the next CXNN draws another (R249). -/
def State.drawn (s : State) : State := { s with rndCount := s.rndCount + 1 }

/-! ### Control state: scheduler, breakpoints, ROM bounds -/

/-- `SCHED <- x` (R20). -/
def State.setSched (s : State) (x : Sched) : State := { s with sched := x }

/-- `RATE <- r` (R21). -/
def State.setRate (s : State) (r : Rat) : State := { s with rate := r }

/-- `BP <- l` (R22). -/
def State.setBp (s : State) (l : List Nat) : State := { s with bp := l }

/-- `LASTBP <- a` (R23). -/
def State.setLastBp (s : State) (a : Option Word) : State := { s with lastBp := a }

/-- `ROMMAX <- a` (R24). -/
def State.setRomMax (s : State) (a : Nat) : State := { s with romMax := a }

/-- A host operation returns a result. -/
def State.answer (s : State) (r : HostResult) : State := { s with results := s.results ++ [r] }

/-- The oldest event has been taken from the schedule. -/
def State.popInput (s : State) : State := { s with inputs := s.inputs.tail }

/-! ### Halt entry, and leaving a halt -/

/-- A reason is a fault unless it is `breakpoint` (R230). -/
def HaltReason.isFault : HaltReason → Bool
  | .breakpoint => false
  | _ => true

/-- The number of a halt reason (R231).  No register holds it. -/
def HaltReason.code : HaltReason → Nat
  | .breakpoint => 0
  | .overflow => 1
  | .illegal => 2
  | .memrange => 3
  | .stackoverflow => 4
  | .stackunderflow => 5
  | .keyrange => 6

/-- `halt(reason)`, the entry of every halt: SCHED <- Halted(reason), emit Halt(reason); nothing is saved, PC stays
(R232).  A fault is recorded for good (R239). -/
def State.halt (s : State) (r : HaltReason) : State :=
  { s with
    sched := .halted r
    out := s.out ++ [.halt r]
    faults := s.faults ++ (if r.isFault then [r] else []) }

/-- `raise` of a fault in a meaning: the cycle ends with that halt (00_scope.md section 6, R235). -/
def raise (r : HaltReason) (s : State) : Result := .next (s.halt r)

/-- Leaving `Halted`, or `Idle`, by `run`: SCHED <- Running, RATE <- rateHz; there is no return-from-trap instruction and
nothing to restore (R203, R238). -/
def State.resume (s : State) (rateHz : Rat) : State := (s.setSched .running).setRate rateHz

end Sys2Proof.Machine
end

