-- ==== Sys2Proof/Machine/Flags.lean ====
section
/-! DEFINITION. Every flag computation (10_state.md R11, 42_alu.md R132).  The one flag is the whole byte VF, and each of
these gives it 0 or 1. -/

namespace Sys2Proof.Machine

/-- The register VF, V[15] (R11). -/
def vf : Nibble := 15

/-- The carry out of bit 7 (R126). -/
def carryFlag (a b : Byte) : Byte := if a.toNat + b.toNat > 255 then 1 else 0

/-- No borrow in `a - b`: 1 if a >= b (R127, R129). -/
def noBorrowFlag (a b : Byte) : Byte := if a.toNat ≥ b.toNat then 1 else 0

/-- The bit that a right shift loses (R128). -/
def lsbFlag (a : Byte) : Byte := a &&& 1

/-- The bit that a left shift loses (R130). -/
def msbFlag (a : Byte) : Byte := (a >>> 7) &&& 1

/-- Collision: VF becomes 1 if the cell about to be toggled is 1, and else stays (R171). -/
def State.collide (s : State) (x : Fin 64) (y : Fin 32) : State := if s.cell x y then s.setV vf 1 else s

end Sys2Proof.Machine
end

