-- ==== Sys2Proof/Machine/Operands.lean ====
section
/-! DEFINITION. The operand forms (30_encoding.md R63, 43_index_memory.md R156, 44_display.md R171): how an instruction's
fields and registers become values, addresses, keys, skips and pixels. -/

namespace Sys2Proof.Machine

/-- `zext_16(NNN)` (R63). -/
def addrOf (nnn : Addr12) : Word := nnn.setWidth 16

/-- `zext_16` of a byte, the addend of BNNN and FX1E (R102, R151). -/
def wordOfByte (b : Byte) : Word := b.setWidth 16

/-- The address of the glyph of a whole byte, 0x050 + 5 * VX (R152). -/
def glyphAddr (vx : Byte) : Word := BitVec.ofNat 16 (fontBase + 5 * vx.toNat)

/-- The three decimal digits, hundreds first (R153). -/
def bcdDigits (vx : Byte) : List Byte :=
  [BitVec.ofNat 8 (vx.toNat / 100), BitVec.ofNat 8 (vx.toNat / 10 % 10), BitVec.ofNat 8 (vx.toNat % 10)]

/-- The values of V0 to VX, X + 1 of them (R154). -/
def regsUpTo (s : State) (x : Nibble) : List Byte :=
  (List.range (x.toNat + 1)).map (fun r => s.getV (BitVec.ofNat 4 r))

/-- skip-next: PC + 2 on the already incremented PC (R89). -/
def State.skip (s : State) : State := s.setPc (s.pc + 2)

/-- The four comparing skips and the two key skips: skip if the condition holds, else write nothing (R89, R104). -/
def skipIf (c : Bool) (s : State) : Result := .next (if c then s.skip else s)

/-- A key instruction's key number is the value of VX; above 15 there is no such key and KeyRange is raised (R180). -/
def withKey (x : Nibble) (s : State) (f : Bool → Result) : Result :=
  if h : (s.getV x).toNat < 16 then f (s.key[(s.getV x).toNat]'h) else raise .keyrange s

/-- `min { k | KEY[k] }`, none where no key is down (R182). -/
def lowestKey (s : State) : Option Nat := s.key.toList.findIdx? id

/-- The columns of a sprite byte whose bit is set, left to right: bit 7 is column 0 (R171). -/
def setColumns (byte : Byte) : List Nat := (List.range 8).filter (fun c => byte &&& (0x80#8 >>> c) != 0)

/-- The column of the screen, wrapped: (VX + c) mod 64 (R171). -/
def column (vx : Byte) (c : Nat) : Fin 64 := ⟨(vx.toNat + c) % 64, Nat.mod_lt _ (by decide)⟩

/-- The row of the screen, wrapped: (VY + r) mod 32 (R171). -/
def row (vy : Byte) (r : Nat) : Fin 32 := ⟨(vy.toNat + r) % 32, Nat.mod_lt _ (by decide)⟩

/-- The cells a sprite meets, row by row from row `r` on, left to right (R171). -/
def pixelsFrom (vx vy : Byte) : Nat → List Byte → List (Fin 64 × Fin 32)
  | _, [] => []
  | r, byte :: rest => (setColumns byte).map (fun c => (column vx c, row vy r)) ++ pixelsFrom vx vy (r + 1) rest

/-- One set sprite bit: collision, toggle, and the Pixel event with the cell's new value (R171). -/
def State.plot (s : State) (p : Fin 64 × Fin 32) : State :=
  ((s.collide p.1 p.2).toggle p.1 p.2).emit (.pixel p.1.val p.2.val (!s.cell p.1 p.2))

end Sys2Proof.Machine
end

