-- ==== Sys2Proof/Machine/Alu.lean ====
section
/-! DEFINITION. Load, arithmetic, logic, shift, random (42_alu.md).  Operands are read before any write, and the writes
stand in the order of the rules, so that the later one to VF stays (40_cycle.md R88; 42_alu.md R133; log entry 14). -/

namespace Sys2Proof.Machine

/-- 6XNN: VX <- NN (R120). -/
def execLdImm (x : Nibble) (nn : Byte) (s : State) : Result := .next (s.setV x nn)

/-- 7XNN: VX <- VX + NN mod 256, no flag (R121). -/
def execAddImm (x : Nibble) (nn : Byte) (s : State) : Result := .next (s.setV x (s.getV x + nn))

/-- 8XY0: VX <- VY (R122). -/
def execLdReg (x y : Nibble) (s : State) : Result := .next (s.setV x (s.getV y))

/-- 8XY1: VX <- VX OR VY; VF is not written (R123). -/
def execOr (x y : Nibble) (s : State) : Result := .next (s.setV x (s.getV x ||| s.getV y))

/-- 8XY2: VX <- VX AND VY; VF is not written (R124). -/
def execAnd (x y : Nibble) (s : State) : Result := .next (s.setV x (s.getV x &&& s.getV y))

/-- 8XY3: VX <- VX XOR VY; VF is not written (R125). -/
def execXor (x y : Nibble) (s : State) : Result := .next (s.setV x (s.getV x ^^^ s.getV y))

/-- 8XY4: VX <- VX + VY mod 256, then VF <- carry (R126). -/
def execAdd (x y : Nibble) (s : State) : Result :=
  .next ((s.setV x (s.getV x + s.getV y)).setV vf (carryFlag (s.getV x) (s.getV y)))

/-- 8XY5: VX <- VX - VY mod 256, then VF <- no borrow (R127). -/
def execSub (x y : Nibble) (s : State) : Result :=
  .next ((s.setV x (s.getV x - s.getV y)).setV vf (noBorrowFlag (s.getV x) (s.getV y)))

/-- 8XY7: VX <- VY - VX mod 256, then VF <- no borrow (R129). -/
def execSubn (x y : Nibble) (s : State) : Result :=
  .next ((s.setV x (s.getV y - s.getV x)).setV vf (noBorrowFlag (s.getV y) (s.getV x)))

/-- 8XY6: VF <- bit 0 of VX, then VX <- VX >> 1; Y is ignored (R128). -/
def execShr (x : Nibble) (s : State) : Result :=
  .next ((s.setV vf (lsbFlag (s.getV x))).setV x (s.getV x >>> 1))

/-- 8XYE: VF <- bit 7 of VX, then VX <- VX << 1 mod 256; Y is ignored (R130). -/
def execShl (x : Nibble) (s : State) : Result :=
  .next ((s.setV vf (msbFlag (s.getV x))).setV x (s.getV x <<< 1))

/-- CXNN: VX <- rnd AND NN, one byte drawn (R131, R249). -/
def execRnd (x : Nibble) (nn : Byte) (s : State) : Result := .next (s.drawn.setV x (s.rndByte &&& nn))

end Sys2Proof.Machine
end

