-- ==== Sys2Proof/Machine/Display.lean ====
section
/-! DEFINITION. Display (44_display.md): 00E0 and DXYN. -/

namespace Sys2Proof.Machine

/-- 00E0: every cell 0, emit Clear (R170). -/
def execCls (s : State) : Result := .next (s.clearFb.emit .clear)

/-- DXYN: the N sprite bytes at I, read before any write; VF <- 0, then each set bit in turn.  MemRange, where the bytes do
not all exist, comes before VF is reset (R171).  The anchor is VX, VY before the instruction (R88; log entry 14). -/
def execDrw (x y n : Nibble) (s : State) : Result :=
  match s.mem.read s.i.toNat n.toNat with
  | some bytes => .next ((pixelsFrom (s.getV x) (s.getV y) 0 bytes).foldl State.plot (s.setV vf 0))
  | none => raise .memrange s

end Sys2Proof.Machine
end

