-- ==== Sys2Proof/Machine/Flow.lean ====
section
/-! DEFINITION. Control transfer (41_flow.md): 1NNN, BNNN, 2NNN, 00EE and the four comparing skips.  On entry PC is
already past the instruction (R85). -/

namespace Sys2Proof.Machine

/-- 1NNN: PC <- NNN (R100). -/
def execJp (nnn : Addr12) (s : State) : Result := .next (s.setPc (addrOf nnn))

/-- BNNN: PC <- NNN + V0 in 16 bits (R102). -/
def execJpV0 (nnn : Addr12) (s : State) : Result := .next (s.setPc (addrOf nnn + wordOfByte (s.getV 0)))

/-- 2NNN: push PC, jump; StackOverflow where SP >= 16 (R103). -/
def execCall (nnn : Addr12) (s : State) : Result :=
  if h : s.sp.toNat < 16 then
    .next (((s.setStack ⟨s.sp.toNat, h⟩ s.pc).setSp (s.sp + 1)).setPc (addrOf nnn))
  else raise .stackoverflow s

/-- 00EE: pop into PC; StackUnderflow where SP = 0 or SP > 16 (R101). -/
def execRet (s : State) : Result :=
  if h : 0 < s.sp.toNat ∧ s.sp.toNat ≤ 16 then
    .next ((s.setSp (s.sp - 1)).setPc (s.stack[s.sp.toNat - 1]'(by omega)))
  else raise .stackunderflow s

/-- 3XNN: skip if VX = NN (R104). -/
def execSeImm (x : Nibble) (nn : Byte) (s : State) : Result := skipIf (s.getV x == nn) s

/-- 4XNN: skip if VX /= NN (R105). -/
def execSneImm (x : Nibble) (nn : Byte) (s : State) : Result := skipIf (s.getV x != nn) s

/-- 5XYN: skip if VX = VY; N is ignored (R106, R67). -/
def execSeReg (x y : Nibble) (s : State) : Result := skipIf (s.getV x == s.getV y) s

/-- 9XYN: skip if VX /= VY; N is ignored (R107, R67). -/
def execSneReg (x y : Nibble) (s : State) : Result := skipIf (s.getV x != s.getV y) s

end Sys2Proof.Machine
end

