-- ==== Sys2Proof/Machine/Index.lean ====
section
/-! DEFINITION. The index register and memory transfer (43_index_memory.md).  The transfers never change I (R156), and
check their whole address range before their first write (R41). -/

namespace Sys2Proof.Machine

/-- ANNN: I <- NNN (R150). -/
def execLdI (nnn : Addr12) (s : State) : Result := .next (s.setI (addrOf nnn))

/-- FX1E: I <- I + VX mod 65536, no flag (R151). -/
def execAddI (x : Nibble) (s : State) : Result := .next (s.setI (s.i + wordOfByte (s.getV x)))

/-- FX29: I <- 0x050 + 5 * VX (R152). -/
def execLdF (x : Nibble) (s : State) : Result := .next (s.setI (glyphAddr (s.getV x)))

/-- Store bytes at I, or raise MemRange with nothing written (R153, R154). -/
def storeAtI (bs : List Byte) (s : State) : Result :=
  match s.memWrite s.i.toNat bs with
  | some t => .next t
  | none => raise .memrange s

/-- FX33: the decimal digits of VX at I, I + 1, I + 2 (R153). -/
def execLdB (x : Nibble) (s : State) : Result := storeAtI (bcdDigits (s.getV x)) s

/-- FX55: V0 to VX at I (R154). -/
def execStRegs (x : Nibble) (s : State) : Result := storeAtI (regsUpTo s x) s

/-- FX65: V0 to VX from I, or MemRange with no register written (R155). -/
def execLdRegs (x : Nibble) (s : State) : Result :=
  match s.mem.read s.i.toNat (x.toNat + 1) with
  | some bytes => .next (s.setVs 0 bytes)
  | none => raise .memrange s

end Sys2Proof.Machine
end

