-- ==== Sys2Proof/Machine/Keypad.lean ====
section
/-! DEFINITION. Keypad and timer instructions (45_keypad_timer.md). -/

namespace Sys2Proof.Machine

/-- EX9E: skip if the key VX is down; KeyRange where VX > 15 (R180). -/
def execSkp (x : Nibble) (s : State) : Result := withKey x s (fun down => skipIf down s)

/-- EXA1: skip if the key VX is up; KeyRange where VX > 15 (R181). -/
def execSknp (x : Nibble) (s : State) : Result := withKey x s (fun down => skipIf (!down) s)

/-- FX0A: VX <- the lowest key down; where none is, PC <- PC - 2, so that the next cycle retries (R182). -/
def execLdVxK (x : Nibble) (s : State) : Result :=
  match lowestKey s with
  | some k => .next (s.setV x (BitVec.ofNat 8 k))
  | none => .next (s.setPc (s.pc - 2))

/-- FX07: VX <- DT (R183). -/
def execLdVxDt (x : Nibble) (s : State) : Result := .next (s.setV x s.dt)

/-- FX15: DT <- VX (R184). -/
def execLdDtVx (x : Nibble) (s : State) : Result := .next (s.setDt (s.getV x))

/-- FX18: ST <- VX, with no audio event (R185). -/
def execLdStVx (x : Nibble) (s : State) : Result := .next (s.setSt (s.getV x))

end Sys2Proof.Machine
end

