-- ==== Sys2Proof/Machine/Cycle.lean ====
section
/-! DEFINITION. The instruction cycle (40_cycle.md R80): overflow check, breakpoint check, marker clear, fetch, PC + 2,
decode, execute, in that order; the first that halts ends the call. -/

namespace Sys2Proof.Machine

/-- Whether PC is past addressable memory (R81). -/
def State.overflowed (s : State) : Bool := decide (s.pc.toNat > 0xFFF)

/-- Whether PC is in BP (R82). -/
def State.atBreakpoint (s : State) : Bool := s.bp.contains s.pc.toNat

/-- Whether this cycle halts at a breakpoint: PC in BP and not the address last halted at (R82). -/
def State.breaks (s : State) : Bool := s.atBreakpoint && s.lastBp != some s.pc

/-- The breakpoint halt: LASTBP <- PC, then halt; nothing is fetched (R82). -/
def State.breakHere (s : State) : State := (s.setLastBp (some s.pc)).halt .breakpoint

/-- Marker clear: if PC is not in BP, LASTBP <- none (R83). -/
def State.clearMarker (s : State) : State := if s.atBreakpoint then s else s.setLastBp none

/-- The word at an address: two bytes, the lower address the high byte; none where one does not exist (R42, R84). -/
def fetchAt (m : Memory) (a : Nat) : Option Word :=
  match m.read a 2 with
  | some [hi, lo] => some (wordOf hi lo)
  | _ => none

/-- PC <- PC + 2, for every fetched word, before dispatch (R85). -/
def State.advance (s : State) : State := s.setPc (s.pc + 2)

/-- Decode, dispatch and execute a fetched word; PC is already past it.  An unknown word halts with `illegal` (R86). -/
def runWord (w : Word) (s : State) : Result :=
  match decodeWord Config.strict59 w with
  | .ok i => exec i s
  | .error .strict59 => .refused .strict59
  | .error _ => raise .illegal s

/-- Steps 4 to 8 of the cycle: fetch, increment, decode, execute (R84 to R88). -/
def fetchAndRun (s : State) : Result :=
  match fetchAt s.mem s.pc.toNat with
  | some w => runWord w s.advance
  | none => raise .memrange s

/-- `cycle()` (R80). -/
def cycle (s : State) : Result :=
  if s.overflowed then raise .overflow s
  else if s.breaks then .next s.breakHere
  else fetchAndRun s.clearMarker

/-- The state with bytes placed where the next step fetches (log entry 2): PC stays unless no whole word can be fetched
there, the schedule is the one event that runs a cycle (a cycle tick while Running, the host's `step()` otherwise), and a
breakpoint at PC counts as already halted at. -/
def State.placedForFetch (s : State) (bytes : List Byte) : State :=
  let pc := if s.pc.toNat + bytes.length ≤ memSize then s.pc else 0x200
  { s with
    pc := pc
    mem := s.mem.putAll pc.toNat bytes
    inputs := [if s.sched = .running then .cycleTick else .host .step]
    lastBp := if s.bp.contains pc.toNat then some pc else s.lastBp }

end Sys2Proof.Machine
end

