-- ==== Sys2Proof/Machine/HostOps.lean ====
section
/-! DEFINITION. The host operations (46_host_ops.md).  A rejected operation changes nothing and answers so (R214); one in
the wrong scheduler state is a silent no-op (R215); one that breaks a duty of the host is refused (R218; log entry 13). -/

namespace Sys2Proof.Machine

/-- ROMMAX as a function of a ROM length (R212). -/
def romMaxOf (len : Nat) : Nat := if len = 0 then romBase else romBase + len - 1

/-- `loadROM(bytes)` (R201). -/
def hostLoadROM (bytes : List Byte) (s : State) : Result :=
  if bytes.length > romMaxLen then .next (s.answer (.rejected (.romTooLong bytes.length)))
  else .next (((s.storeBytes romBase bytes).setPc 0x200).setRomMax (romMaxOf bytes.length))

/-- The writes of `reset` that the Change-Notification Bus may report, in the order of R202. -/
def resetNotices : List Notice :=
  (List.range 16).map .v ++ [.i, .sp] ++ (List.range 16).map .stack ++ [.dt, .st, .pc]
    ++ (List.range memSize).map .mem ++ (List.range fontLen).map (fun k => .mem (fontBase + k))

/-- The state `reset(romSize)` leaves: every row of R30's second column (R202).  SCHED, RATE, BP and LASTBP stay, and no
event is emitted. -/
def State.reinit (s : State) (romSize : Nat) : State :=
  { s with
    v := Vector.replicate 16 0
    i := 0
    pc := 0x200
    sp := 0
    stack := Vector.replicate 16 0
    dt := 0
    st := 0
    mem := []
    fb := Vector.replicate 32 (Vector.replicate 64 false)
    key := Vector.replicate 16 false
    romMax := romMaxOf romSize
    trace := s.trace ++ resetNotices }

/-- `reset(romSize)` (R202). -/
def hostReset (romSize : Nat) (s : State) : Result :=
  if romSize > romMaxLen then .refused (.hostDuty .romSizeInRange) else .next (s.reinit romSize)

/-- `run(rateHz)` (R203). -/
def hostRun (rateHz : Rat) (s : State) : Result :=
  if s.sched = .running then .refused (.hostDuty .notRunTwice)
  else if 0 < rateHz then .next (s.resume rateHz)
  else .refused (.hostDuty .positiveRate)

/-- `stop()` (R204). -/
def hostStop (s : State) : Result := .next (if s.sched = .running then s.setSched .idle else s)

/-- `changeSpeed(newRateHz)` (R205). -/
def hostChangeSpeed (newRateHz : Rat) (s : State) : Result :=
  if 0 < newRateHz then .next (if s.sched = .running then s.setRate newRateHz else s)
  else .refused (.hostDuty .positiveRate)

/-- `step()`: one cycle, answering PC after it; STEP_BUSY while running (R206). -/
def hostStep (s : State) : Result :=
  if s.sched = .running then .next (s.answer .stepBusy)
  else
    match cycle s with
    | .next t => .next (t.answer (.steppedTo t.pc))
    | .fault f => .fault f
    | .refused r => .refused r

/-- `setKeyDown(key, isDown)` (R207). -/
def hostSetKeyDown (key : Nat) (isDown : Bool) (s : State) : Result :=
  if h : key < 16 then .next (s.setKey ⟨key, h⟩ isDown) else .refused (.hostDuty .keyInRange)

/-- Whether a breakpoint address passes the bounds test, as given, before rounding (R208). -/
def State.bpBounds (s : State) (addr : Int) : Bool := decide (0x200 ≤ addr ∧ addr ≤ (s.romMax : Int))

/-- `addr - (addr mod 2)` (R208). -/
def evenFloor (addr : Int) : Nat := addr.toNat - addr.toNat % 2

/-- Insert an address into an ascending list without repeats (R22). -/
def insertAddr : List Nat → Nat → List Nat
  | [], a => [a]
  | b :: rest, a => if a < b then a :: b :: rest else if a = b then b :: rest else b :: insertAddr rest a

/-- Breakpoint `set(addr)` (R208). -/
def hostBpSet (addr : Int) (s : State) : Result :=
  if s.bpBounds addr then .next (s.setBp (insertAddr s.bp (evenFloor addr)))
  else .next (s.answer (.rejected (.outOfRange addr)))

/-- Breakpoint `remove(addr)` (R209). -/
def hostBpRemove (addr : Int) (s : State) : Result :=
  if s.bpBounds addr then
    if s.bp.contains (evenFloor addr) then .next (s.setBp (s.bp.filter (fun a => a != evenFloor addr)))
    else .next (s.answer (.rejected (.notFound addr)))
  else .next (s.answer (.rejected (.outOfRange addr)))

/-- Breakpoint `clear()` (R210). -/
def hostBpClear (s : State) : Result := .next (s.setBp [])

/-- Breakpoint `list()` (R211). -/
def hostBpList (s : State) : Result := .next (s.answer (.breakpoints s.bp))

/-- The memory accessor, one byte (R213). -/
def hostPeek (addr : Nat) (s : State) : Result :=
  if addr < memSize then .next (s.answer (.byte (s.mem.get addr))) else .refused (.hostDuty .peekInRange)

/-- One host operation (R200). -/
def hostOp (op : HostOp) (s : State) : Result :=
  match op with
  | .loadROM bytes => hostLoadROM bytes s
  | .reset romSize => hostReset romSize s
  | .run rateHz => hostRun rateHz s
  | .stop => hostStop s
  | .changeSpeed newRateHz => hostChangeSpeed newRateHz s
  | .step => hostStep s
  | .setKeyDown key isDown => hostSetKeyDown key isDown s
  | .bpSet addr => hostBpSet addr s
  | .bpRemove addr => hostBpRemove addr s
  | .bpClear => hostBpClear s
  | .bpList => hostBpList s
  | .peek addr => hostPeek addr s

end Sys2Proof.Machine
end

