-- ==== Sys2Proof/Machine/Timer.lean ====
section
/-! DEFINITION. The timer tick (60_exceptions.md R243, R244). -/

namespace Sys2Proof.Machine

/-- DT counts down, not below 0 (R243). -/
def State.tickDelay (s : State) : State := if s.dt = 0 then s else s.setDt (s.dt - 1)

/-- ST counts down, not below 0, and signals the audio sink; with ST = 0 nothing is signalled (R243, R244). -/
def State.tickSound (s : State) : State :=
  if s.st = 0 then s
  else (s.setSt (s.st - 1)).emit (if s.st = 1 then .toneOff else .toneOn)

/-- `timerTick()` (R243). -/
def timerTick (s : State) : State := s.tickDelay.tickSound

end Sys2Proof.Machine
end

