-- ==== Sys2Proof/Machine/Events.lean ====
section
/-! DEFINITION. One atomic action of the machine: an event of the schedule taken by the agent it belongs to (00_scope.md
R7; 60_exceptions.md R253; log entries 1 to 3). -/

namespace Sys2Proof.Machine

/-- A cycle tick runs `cycle()` while Running; in Idle and Halted the activity is cancelled and nothing happens (R20, R80). -/
def cycleTick (s : State) : Result := if s.sched = .running then cycle s else .next s

/-- A timer tick runs `timerTick()` while Running; otherwise the activity is cancelled and nothing happens (R20, R243). -/
def tickTimers (s : State) : Result := .next (if s.sched = .running then timerTick s else s)

/-- The event to take next: the oldest of the schedule; where it is empty, a cycle tick while Running, and none otherwise,
since the host need not issue anything (R218; log entry 2). -/
def State.nextInput (s : State) : Option Input :=
  match s.inputs with
  | e :: _ => some e
  | [] => if s.sched = .running then some .cycleTick else none

/-- The action of one event (R7). -/
def takeInput (e : Input) (s : State) : Result :=
  match e with
  | .cycleTick => cycleTick s
  | .timerTick => tickTimers s
  | .host op => hostOp op s

/-- The event, where there is one, is taken out of the schedule and its action done; where there is none nothing happens:
"a core that is never run never executes" (R218). -/
def takeNext (e : Option Input) (s : State) : Result :=
  match e with
  | some e => takeInput e s.popInput
  | none => .next s

end Sys2Proof.Machine
end

