-- ==== Sys2Proof/Machine/Step.lean ====
section
/-! DEFINITION. One step of the machine: one atomic action (00_scope.md R7). -/

namespace Sys2Proof.Machine

/-- Take the next event out of the schedule and do its action; with no event to take, nothing. -/
def step (s : State) : Host.Outcome State Fault Refusal := takeNext s.nextInput s

/-- The state with an instruction, its bits as spec/opcode_table.json numbers them, placed where the next step fetches,
and the event that runs a cycle to take next (log entry 2). -/
def State.withFetchWord (s : State) (nbits w : Nat) : State := s.placedForFetch (bytesOf (tableWord nbits w))

end Sys2Proof.Machine
end

