-- ==== Sys2Proof/Safety.lean ====
section
/-! DEFINITION. What counts as a safe run and as a finished one, the machine's invariant, and which part of the state no
action reads (60_exceptions.md R235, R239; 70_reset_and_hazards.md R283; 10_state.md R31). -/

namespace Sys2Proof.Machine

/-- No fault has been recorded: the premise of a claim about a program (R235, R239). -/
abbrev State.faultFree (s : State) : Prop := s.faults = []

/-- Whether the scheduler is halted with an error reason (R20, R230). -/
def Sched.faulted : Sched → Bool
  | .halted r => r.isFault
  | .idle => false
  | .running => false

/-- END, form (a): the core has reached an address that holds the jump to itself (R283).  A state halted by a fault, or of a
run in which a fault was seen, is never an end (R235, R283). -/
abbrev State.atSelfJump (s : State) : Prop :=
  s.faultFree ∧ s.sched.faulted = false ∧
  (fetchAt s.mem s.pc.toNat).map (decodeWord Config.strict59) = some (.ok (.jp (s.pc.setWidth 12)))

/-- END, form (b): the step from `s` to `t` is the halt with breakpoint at the address `a`, in a run with no fault (R283).
It is said of the step that halts, since a later `step()`, `loadROM` or `reset` may leave SCHED Halted(breakpoint) with PC
somewhere else (log entry 17). -/
abbrev State.stoppedAt (s t : State) (a : Word) : Prop :=
  step s = .next t ∧ t.out = s.out ++ [.halt .breakpoint] ∧ t.sched = .halted .breakpoint ∧ t.pc = a ∧ t.faultFree

/-- A breakpoint address: even, at least 0x200, in memory (R22, R208). -/
abbrev breakpointAddr (a : Nat) : Prop := a % 2 = 0 ∧ 0x200 ≤ a ∧ a ≤ 0xFFF

/-- The invariant of the machine (R31, R91, and the ranges of R22 to R24). -/
structure State.Inv (s : State) : Prop where
  /-- memory is in canonical form and all in the 4096 bytes (R17) -/
  memory : s.mem.wf
  /-- at most sixteen return addresses are held (R14, R31) -/
  depth : s.sp.toNat ≤ 16
  /-- PC is at most 0x10FE (R31, R91) -/
  counter : s.pc.toNat ≤ 0x10FE
  /-- a stacked PC is at most 0x1000 (R91) -/
  returns : ∀ w ∈ s.stack.toList, w.toNat ≤ 0x1000
  /-- BP is an ascending list of breakpoint addresses (R22) -/
  breakpoints : s.bp.Pairwise (· < ·) ∧ ∀ a ∈ s.bp, breakpointAddr a
  /-- LASTBP is none or an address where a breakpoint was (R23) -/
  marker : ∀ a, s.lastBp = some a → breakpointAddr a.toNat
  /-- ROMMAX is from 0x200 to 0xFFF (R24, R212) -/
  bounds : 0x200 ≤ s.romMax ∧ s.romMax ≤ 0xFFF
  /-- a machine halted by a fault has that fault on record, and a breakpoint is never on it (R230, R239) -/
  record : (∀ r, s.sched = .halted r → r.isFault = true → r ∈ s.faults) ∧ ∀ r ∈ s.faults, r.isFault = true

/-- The state without what no action reads back: the record of faults, the outputs, and the nominal rate (R21, R216,
R217). -/
def State.withoutLogs (s : State) : State :=
  { s with rate := 0, faults := [], out := [], trace := [], results := [] }

/-- An outcome without them. -/
def withoutLogs : Result → Result
  | .next t => .next t.withoutLogs
  | .fault f => .fault f
  | .refused r => .refused r

end Sys2Proof.Machine
end

