-- ==== Sys2Proof/Certificates/Slice0/Obligations.lean ====
section
/-! DEFINITION. The statements for the provers, from the numbered rules of spec/.  A next state is written out as a
record update of the state before, so that a statement of an instruction's result is also its frame: every register, flag,
timer, stack entry, memory byte, cell and control field that the update does not name is unchanged. -/

namespace Sys2Proof.Statements

open Sys2Proof.Machine

/-- The word is decoded to the instruction on this machine. -/
def decodesTo (w : Word) (i : Instr) : Prop := decodeWord Config.strict59 w = .ok i

/-- `V[r] <- b`, and nothing else but the notice of it. -/
def wroteV (s : State) (r : Nibble) (b : Byte) : State :=
  { s with v := s.v.set r.toNat b (nibble_lt r), trace := s.trace ++ [.v r.toNat] }

/-- `PC <- n`, and nothing else but the notice of it. -/
def wrotePc (s : State) (n : Nat) : State := { s with pc := BitVec.ofNat 16 n, trace := s.trace ++ [.pc] }

/-- `I <- n`, and nothing else but the notice of it. -/
def wroteI (s : State) (n : Nat) : State := { s with i := BitVec.ofNat 16 n, trace := s.trace ++ [.i] }

/-- The halt with a fault: SCHED, the Halt event and the record of the fault; everything else stays (R232, R239). -/
def faulted (s : State) (r : HaltReason) : State :=
  { s with sched := .halted r, out := s.out ++ [.halt r], faults := s.faults ++ [r] }

/-- The skip: 2 is added to the already incremented PC where the condition holds; else nothing at all is written (R89). -/
def skipped (c : Bool) (s : State) : State := if c then wrotePc s (s.pc.toNat + 2) else s

/-- The instruction word that memory holds at an address, the high byte first (R42). -/
def wordAt (s : State) (a : Nat) : Word := wordOf (s.mem.get a) (s.mem.get (a + 1))

/-- The state in which a cycle from `s` executes its instruction: the marker cleared unless PC is in BP (R83), PC past the
instruction (R85). -/
def readyToExecute (s : State) : State :=
  wrotePc { s with lastBp := if s.pc.toNat ∈ s.bp then s.lastBp else none } (s.pc.toNat + 2)

/-- The fault an instruction can raise (R237). -/
def faultOf : Instr → Option HaltReason
  | .call _ => some .stackoverflow
  | .ret => some .stackunderflow
  | .skp _ => some .keyrange
  | .sknp _ => some .keyrange
  | .drw _ _ _ => some .memrange
  | .ldB _ => some .memrange
  | .stRegs _ => some .memrange
  | .ldRegs _ => some .memrange
  | _ => none

/-- The three decimal digits of VX as FX33 stores them, hundreds first (R153). -/
def digitsOf (s : State) (x : Nibble) : List Byte :=
  [BitVec.ofNat 8 ((s.getV x).toNat / 100), BitVec.ofNat 8 ((s.getV x).toNat / 10 % 10), BitVec.ofNat 8 ((s.getV x).toNat % 10)]

/-- V0 to VX as FX55 stores them (R154). -/
def registersTo (s : State) (x : Nibble) : List Byte := (List.range (x.toNat + 1)).map fun r => s.getV (BitVec.ofNat 4 r)

/-- The byte at an address once bytes have been stored at I: the one stored there, else the one that was there (R50). -/
def afterStore (s : State) (bytes : List Byte) (a : Nat) : Byte :=
  if s.i.toNat ≤ a then (bytes[a - s.i.toNat]?).getD (s.mem.get a) else s.mem.get a

/-- The cycle from `t` fetches the word that the store of `bytes` at I from `s` leaves at PC, and executes it. -/
def fetchesStored (s t : State) (bytes : List Byte) : Prop :=
  t.pc = s.pc ∧
  fetchAt t.mem t.pc.toNat = some (wordOf (afterStore s bytes s.pc.toNat) (afterStore s bytes (s.pc.toNat + 1))) ∧
  ∀ i, decodesTo (wordOf (afterStore s bytes s.pc.toNat) (afterStore s bytes (s.pc.toNat + 1))) i →
    ¬ (t.pc.toNat ∈ t.bp ∧ t.lastBp ≠ some t.pc) → cycle t = exec i (readyToExecute t)

/-- The sprite of DXYN, the bytes at I, covers the cell (R171). -/
def covers (s : State) (x y n : Nibble) (cx : Fin 64) (cy : Fin 32) : Prop :=
  ∃ r < n.toNat, ∃ c < 8, (s.mem.get (s.i.toNat + r)).getLsbD (7 - c) = true ∧
    cx.val = ((s.getV x).toNat + c) % 64 ∧ cy.val = ((s.getV y).toNat + r) % 32

/-- The Pixel events of DXYN from `s`: row by row, left to right, one for each set bit, with the cell's new value (R171). -/
def pixelEvents (s : State) (x y n : Nibble) : List OutEvent :=
  (List.range n.toNat).flatMap fun r =>
    ((List.range 8).filter fun c => (s.mem.get (s.i.toNat + r)).getLsbD (7 - c)).map fun c =>
      .pixel (((s.getV x).toNat + c) % 64) (((s.getV y).toNat + r) % 32) (!s.cell (column (s.getV x) c) (row (s.getV y) r))

end Sys2Proof.Statements

open Sys2Proof Sys2Proof.Machine Sys2Proof.Statements

/-! ### Encoding (30_encoding.md) -/

/-- O1. Words written out from the patterns of R65 decode to the instructions they stand for. The word 5121, whose low
nibble is not the 0 of the pattern 5XY0, decodes by R67, the spec's decision D8 (log entry 7). -/
def Obligations.WrittenOutWordsDecode : Prop :=
  decodesTo 0x00E0 .cls ∧ decodesTo 0x00EE .ret ∧ decodesTo 0x1ABC (.jp 0xABC) ∧ decodesTo 0x220A (.call 0x20A) ∧
  decodesTo 0x5121 (.seReg 1 2 1) ∧ decodesTo 0x6005 (.ldImm 0 5) ∧ decodesTo 0x8124 (.addReg 1 2) ∧
  decodesTo 0x8AB6 (.shr 0xA 0xB) ∧ decodesTo 0xB300 (.jpV0 0x300) ∧ decodesTo 0xD125 (.drw 1 2 5) ∧
  decodesTo 0xE19E (.skp 1) ∧ decodesTo 0xF355 (.stRegs 3)

/-- O2.  Decode after encode: the word of a well-formed instruction is decoded to that instruction, with every operand at
every value, under either reading of R67; and so are its bytes in memory order (R65, R67, R42). -/
def Obligations.DecodeOfEncodeIsIdentity : Prop :=
  (∀ (strict : Bool) (i : Instr), i.wellFormed strict = true → decodeWord strict (encode i) = .ok i) ∧
  ∀ (i : Instr) (rest : List Byte), i.WellFormed → decode (encodeBytes i ++ rest) = .ok (i, rest)

/-- O3.  Encode after decode: a word that is decoded has one meaning, its instruction is well formed, and the encoder gives
the word back, so the decoder drops no bit. -/
def Obligations.EncodeOfDecodeIsIdentity : Prop :=
  ∀ (strict : Bool) (w : Word) (i : Instr), decodeWord strict w = .ok i → i.wellFormed strict = true ∧ encode i = w

/-- O4.  The illegal words are exactly those of R66's table, class by class. -/
def Obligations.IllegalWordsExactly : Prop :=
  ∀ w : Word, (∀ i, ¬ decodesTo w i) ↔
    (w.toNat / 4096 = 0x0 ∧ w.toNat % 4096 ≠ 0x0E0 ∧ w.toNat % 4096 ≠ 0x0EE) ∨
    (w.toNat / 4096 = 0x8 ∧ w.toNat % 16 ∈ [0x8, 0x9, 0xA, 0xB, 0xC, 0xD, 0xF]) ∨
    (w.toNat / 4096 = 0xE ∧ w.toNat % 256 ≠ 0x9E ∧ w.toNat % 256 ≠ 0xA1) ∨
    (w.toNat / 4096 = 0xF ∧ w.toNat % 256 ∉ [0x07, 0x0A, 0x15, 0x18, 0x1E, 0x29, 0x33, 0x55, 0x65])

/-- O5.  The round trip of the bit-splitting (R71). -/
def Obligations.FieldsOfTwoBytes : Prop :=
  ∀ hi lo : Byte,
    (fieldsOf (wordOf hi lo)).cls.toNat = hi.toNat / 16 ∧ (fieldsOf (wordOf hi lo)).x.toNat = hi.toNat % 16 ∧
    (fieldsOf (wordOf hi lo)).y.toNat = lo.toNat / 16 ∧ (fieldsOf (wordOf hi lo)).n.toNat = lo.toNat % 16 ∧
    (fieldsOf (wordOf hi lo)).nn = lo ∧ (fieldsOf (wordOf hi lo)).nnn.toNat = hi.toNat % 16 * 256 + lo.toNat ∧
    (wordOf hi lo).toNat = hi.toNat * 256 + lo.toNat ∧
    (wordOf hi lo).toNat = (fieldsOf (wordOf hi lo)).cls.toNat * 4096 + (fieldsOf (wordOf hi lo)).x.toNat * 256 +
      (fieldsOf (wordOf hi lo)).y.toNat * 16 + (fieldsOf (wordOf hi lo)).n.toNat

/-! ### Power-on, and the machine's invariant (10_state.md) -/

/-- O6. The power-on values that R30's table gives; RATE, which it leaves unspecified, is not named. SCHED, BP, LASTBP
and ROMMAX are the spec's own decision D15 (log entry 15). -/
def Obligations.PowerOnValues : Prop :=
  (∀ r, State.reset.getV r = 0) ∧ State.reset.i = 0 ∧ State.reset.pc = 0x200 ∧ State.reset.sp = 0 ∧
  (∀ w ∈ State.reset.stack.toList, w = 0) ∧ State.reset.dt = 0 ∧ State.reset.st = 0 ∧
  (∀ a < 4096, (a < 0x050 ∨ 0x0A0 ≤ a) → State.reset.mem.get a = 0) ∧
  (∀ k < 80, some (State.reset.mem.get (0x050 + k)) = Config.font[k]?) ∧
  (∀ x y, State.reset.cell x y = false) ∧ (∀ d ∈ State.reset.key.toList, d = false) ∧
  State.reset.romMax = 0x200 ∧ State.reset.sched = .idle ∧ State.reset.bp = [] ∧ State.reset.lastBp = none

/-- O7.  The invariant holds after power-on. -/
def Obligations.InvariantAtPowerOn : Prop := State.reset.Inv

/-- O8. Every step keeps the invariant: canonical memory, SP at most 16, PC at most 0x10FE, stacked addresses at most
0x1000, breakpoints even and in range, ROMMAX in range, every fault on record (R31, R91, R22, R239; the record of
faults is the model's field, log entry 9). -/
def Obligations.StepKeepsInvariant : Prop := ∀ s t : State, s.Inv → step s = .next t → t.Inv

/-- O9.  No action reads the outputs, the record of faults or the nominal rate: two machines that differ only in them act
alike, whatever the event (R21, R216, R217). -/
def Obligations.LogsAreNeverRead : Prop :=
  ∀ s s' : State, s.withoutLogs = s'.withoutLogs → withoutLogs (step s) = withoutLogs (step s')

/-- O10. Nothing that was emitted, recorded or answered is ever taken back: the record of faults and the three outputs
only grow (R239, R217; log entries 9 to 12). -/
def Obligations.RecordsOnlyGrow : Prop :=
  ∀ s t : State, step s = .next t →
    s.faults <+: t.faults ∧ s.out <+: t.out ∧ s.trace <+: t.trace ∧ s.results <+: t.results

/-! ### The cycle (40_cycle.md) -/

/-- O11. A step runs the decoded instruction. Where the next event is a cycle tick of a running machine, or `step()`
of one that is not, PC is at most 0xFFE and no breakpoint stops the cycle, and the word at PC is decoded to `i`: the
step is exec of `i` with the event taken, the marker cleared and PC past the instruction; and `step()` then answers
PC. That one step takes one event of a list is the model's reading of R7 (log entry 1). -/
def Obligations.StepRunsDecodedInstruction : Prop :=
  ∀ (s : State) (i : Instr), s.pc.toNat ≤ 0xFFE → ¬ (s.pc.toNat ∈ s.bp ∧ s.lastBp ≠ some s.pc) →
    decodesTo (wordAt s s.pc.toNat) i →
    (s.nextInput = some .cycleTick ∧ s.sched = .running →
      step s = exec i (readyToExecute { s with inputs := s.inputs.tail })) ∧
    (s.nextInput = some (.host .step) ∧ s.sched ≠ .running → ∀ t,
      exec i (readyToExecute { s with inputs := s.inputs.tail }) = .next t →
      step s = .next { t with results := t.results ++ [.steppedTo t.pc] })

/-- O12.  Overflow check, before every other: nothing but the halt, and PC keeps its value, so that the next cycle halts
again (R81). -/
def Obligations.OverflowHalts : Prop :=
  ∀ s : State, 0xFFF < s.pc.toNat →
    cycle s = .next (faulted s .overflow) ∧
    cycle (faulted s .overflow) = .next (faulted (faulted s .overflow) .overflow)

/-- O13.  Breakpoint check: PC in BP and LASTBP other than PC halts, with PC recorded and nothing fetched or executed; the
halt is no fault (R82). -/
def Obligations.BreakpointHalts : Prop :=
  ∀ s : State, s.pc.toNat ≤ 0xFFF → s.pc.toNat ∈ s.bp → s.lastBp ≠ some s.pc →
    cycle s = .next { s with
      lastBp := some s.pc, sched := .halted .breakpoint, out := s.out ++ [.halt .breakpoint] }

/-- O14.  A breakpoint is one-shot: after its halt the next cycle executes the instruction there, even where that leaves
PC at the same address, and the cycle after that does not halt at it either (R82 corner cases a and b). -/
def Obligations.BreakpointIsOneShot : Prop :=
  ∀ s t : State, s.pc.toNat ≤ 0xFFE → s.pc.toNat ∈ s.bp → s.lastBp ≠ some s.pc → cycle s = .next t →
    ∀ i, decodesTo (wordAt s s.pc.toNat) i →
      cycle t = exec i (wrotePc t (s.pc.toNat + 2)) ∧
      ∀ u, cycle t = .next u → u.pc = s.pc → ¬ (u.pc.toNat ∈ u.bp ∧ u.lastBp ≠ some u.pc)

/-- O15. Fetch at 0xFFF: the second byte does not exist, MemRange, PC stays and the marker may be cleared (R84; the
fault is the spec's decision D4, log entry 8). -/
def Obligations.FetchAtLastByteFaults : Prop :=
  ∀ s : State, s.pc.toNat = 0xFFF → ¬ (s.pc.toNat ∈ s.bp ∧ s.lastBp ≠ some s.pc) →
    cycle s = .next (faulted { s with lastBp := if s.pc.toNat ∈ s.bp then s.lastBp else none } .memrange)

/-- O16.  An illegal word halts with PC past it and nothing else written but the marker (R86, R234). -/
def Obligations.IllegalWordHalts : Prop :=
  ∀ s : State, s.pc.toNat ≤ 0xFFE → ¬ (s.pc.toNat ∈ s.bp ∧ s.lastBp ≠ some s.pc) →
    (∀ i, ¬ decodesTo (wordAt s s.pc.toNat) i) →
    cycle s = .next (faulted (readyToExecute s) .illegal)

/-- O17. Every cycle from every state answers a next state: there is no state in which the machine is stuck (R87). That a
fault is a next state is the form of the spec's halts (log entry 8), and that no word 5XYN or 9XYN is refused is the
spec's decision D8 (log entry 7). -/
def Obligations.CycleAlwaysAnswers : Prop := ∀ s : State, ∃ t, cycle s = .next t

/-- O18. Precision (R236) and at most one fault an instruction (R237): exec of any instruction, from any state, either
leaves SCHED and the record of faults alone, or is exactly the halt with that instruction's one fault. The spec's
decision D9 (log entry 8). -/
def Obligations.FaultsArePrecise : Prop :=
  ∀ (i : Instr) (s t : State), exec i s = .next t →
    (t.sched = s.sched ∧ t.faults = s.faults) ∨ ∃ r, faultOf i = some r ∧ t = faulted s r

/-- O19. No instruction reaches BP, LASTBP, ROMMAX or the keys, nor STACK and SP except through CALL and RET, nor SCHED
except by a fault (R242); nor RATE, which only the host's operations write (R21), nor the model's own schedule and
results. That the faulting next state is exactly the halt with the instruction's one fault is R236 and R237, which rest
on the spec's decision D9 (log entry 8). -/
def Obligations.ProgramCannotReachControl : Prop :=
  ∀ (i : Instr) (s t : State), exec i s = .next t →
    t.bp = s.bp ∧ t.lastBp = s.lastBp ∧ t.romMax = s.romMax ∧ t.rate = s.rate ∧ t.key = s.key ∧
    t.inputs = s.inputs ∧ t.results = s.results ∧
    ((∀ nnn, i ≠ .call nnn) → t.stack = s.stack ∧ (i ≠ .ret → t.sp = s.sp)) ∧
    (t.sched = s.sched ∨ ∃ r, faultOf i = some r ∧ t = faulted s r)

/-! ### Control transfer (41_flow.md) -/

/-- O20. The two jumps: their words, and PC, which BNNN does not wrap to 12 bits; nothing else changes; a sum above
0xFFF halts the next cycle with overflow (R100, R102). -/
def Obligations.JumpsWritePc : Prop :=
  ∀ (s : State) (nnn : Addr12),
    decodesTo (ofAddr 0x1 nnn) (.jp nnn) ∧ exec (.jp nnn) s = .next (wrotePc s nnn.toNat) ∧
    decodesTo (ofAddr 0xB nnn) (.jpV0 nnn) ∧ exec (.jpV0 nnn) s = .next (wrotePc s (nnn.toNat + (s.getV 0).toNat)) ∧
    ∀ t, exec (.jpV0 nnn) s = .next t → 0xFFF < t.pc.toNat → cycle t = .next (faulted t .overflow)

/-- O21. CALL pushes the incremented PC, increments SP and jumps; with SP >= 16 it is StackOverflow and writes nothing
(R103; the fault is the spec's decision D5, log entry 8). -/
def Obligations.CallPushesAndJumps : Prop :=
  ∀ (s : State) (nnn : Addr12),
    decodesTo (ofAddr 0x2 nnn) (.call nnn) ∧
    (∀ h : s.sp.toNat < 16, exec (.call nnn) s = .next { s with
      stack := s.stack.set s.sp.toNat s.pc h
      sp := BitVec.ofNat 8 (s.sp.toNat + 1)
      pc := BitVec.ofNat 16 nnn.toNat
      trace := s.trace ++ [.stack s.sp.toNat, .sp, .pc] }) ∧
    (16 ≤ s.sp.toNat → exec (.call nnn) s = .next (faulted s .stackoverflow))

/-- O22. RET decrements SP and pops into PC, the entry stays; with SP = 0 or SP > 16 it is StackUnderflow and writes
nothing (R101; the fault is the spec's decision D6, log entry 8). -/
def Obligations.RetPopsIntoPc : Prop :=
  ∀ s : State,
    decodesTo 0x00EE .ret ∧
    (∀ h : 0 < s.sp.toNat ∧ s.sp.toNat ≤ 16, exec .ret s = .next { s with
      sp := BitVec.ofNat 8 (s.sp.toNat - 1)
      pc := s.stack[s.sp.toNat - 1]'(by omega)
      trace := s.trace ++ [.sp, .pc] }) ∧
    (s.sp.toNat = 0 ∨ 16 < s.sp.toNat → exec .ret s = .next (faulted s .stackunderflow))

/-- O23.  A RET undoes a CALL: wherever the subroutine left PC, it resumes after the CALL with SP as it was, and older
return addresses are intact (R101, R103, R109). -/
def Obligations.RetUndoesCall : Prop :=
  ∀ (s : State) (nnn : Addr12) (p : Word), s.sp.toNat < 16 →
    ∃ t u, exec (.call nnn) s = .next t ∧ exec .ret { t with pc := p } = .next u ∧
      u.pc = s.pc ∧ u.sp = s.sp ∧ ∀ k : Fin 16, k.val < s.sp.toNat → u.stack[k.val] = s.stack[k.val]

/-- O24.  The immediate skips: equal, not equal (R104, R105). -/
def Obligations.ImmediateSkips : Prop :=
  ∀ (s : State) (x : Nibble) (nn : Byte),
    decodesTo (ofXnn 0x3 x nn) (.seImm x nn) ∧
    exec (.seImm x nn) s = .next (skipped (decide ((s.getV x).toNat = nn.toNat)) s) ∧
    decodesTo (ofXnn 0x4 x nn) (.sneImm x nn) ∧
    exec (.sneImm x nn) s = .next (skipped (decide ((s.getV x).toNat ≠ nn.toNat)) s)

/-- O25. The register skips: equal, not equal; a low nibble other than 0 is ignored (R106, R107; for the nibble R67,
the spec's decision D8, log entry 7). -/
def Obligations.RegisterSkips : Prop :=
  ∀ (s : State) (x y n : Nibble),
    decodesTo (ofNibbles 0x5 x y n) (.seReg x y n) ∧
    exec (.seReg x y n) s = .next (skipped (decide ((s.getV x).toNat = (s.getV y).toNat)) s) ∧
    decodesTo (ofNibbles 0x9 x y n) (.sneReg x y n) ∧
    exec (.sneReg x y n) s = .next (skipped (decide ((s.getV x).toNat ≠ (s.getV y).toNat)) s)

/-! ### Load, arithmetic, logic, shift, random (42_alu.md) -/

/-- O26.  A register reads what was last written to it, and no write reaches another: no register is hard-wired, there are
no banks and no aliases (R10). -/
def Obligations.RegistersAreIndependent : Prop :=
  ∀ (s : State) (r q : Nibble) (b : Byte), (wroteV s r b).getV q = if q = r then b else s.getV q

/-- O27.  LD and ADD with an immediate: VX and nothing else; the sum wraps and sets no flag (R120, R121). -/
def Obligations.ImmediateLoadAndAdd : Prop :=
  ∀ (s : State) (x : Nibble) (nn : Byte),
    decodesTo (ofXnn 0x6 x nn) (.ldImm x nn) ∧ exec (.ldImm x nn) s = .next (wroteV s x nn) ∧
    decodesTo (ofXnn 0x7 x nn) (.addImm x nn) ∧
    exec (.addImm x nn) s = .next (wroteV s x (BitVec.ofNat 8 (((s.getV x).toNat + nn.toNat) % 256)))

/-- O28.  LD, OR, AND, XOR between registers: VX and nothing else, no flag (R122 to R125). -/
def Obligations.RegisterMoveAndLogic : Prop :=
  ∀ (s : State) (x y : Nibble),
    decodesTo (ofNibbles 0x8 x y 0x0) (.ldReg x y) ∧ exec (.ldReg x y) s = .next (wroteV s x (s.getV y)) ∧
    decodesTo (ofNibbles 0x8 x y 0x1) (.orReg x y) ∧
    exec (.orReg x y) s = .next (wroteV s x (BitVec.ofNat 8 ((s.getV x).toNat ||| (s.getV y).toNat))) ∧
    decodesTo (ofNibbles 0x8 x y 0x2) (.andReg x y) ∧
    exec (.andReg x y) s = .next (wroteV s x (BitVec.ofNat 8 ((s.getV x).toNat &&& (s.getV y).toNat))) ∧
    decodesTo (ofNibbles 0x8 x y 0x3) (.xorReg x y) ∧
    exec (.xorReg x y) s = .next (wroteV s x (BitVec.ofNat 8 ((s.getV x).toNat ^^^ (s.getV y).toNat)))

/-- O29.  ADD of registers: VX gets the sum mod 256, then VF the carry; nothing else (R126). -/
def Obligations.AddSetsCarry : Prop :=
  ∀ (s : State) (x y : Nibble),
    decodesTo (ofNibbles 0x8 x y 0x4) (.addReg x y) ∧
    exec (.addReg x y) s = .next
      (wroteV (wroteV s x (BitVec.ofNat 8 (((s.getV x).toNat + (s.getV y).toNat) % 256))) 15
        (if (s.getV x).toNat + (s.getV y).toNat > 255 then 1 else 0))

/-- O30.  SUB and SUBN: the difference mod 256, then VF = 1 exactly when no borrow is needed; nothing else (R127, R129). -/
def Obligations.SubtractSetsNoBorrow : Prop :=
  ∀ (s : State) (x y : Nibble),
    decodesTo (ofNibbles 0x8 x y 0x5) (.subReg x y) ∧
    exec (.subReg x y) s = .next
      (wroteV (wroteV s x (BitVec.ofNat 8 (((s.getV x).toNat + 256 - (s.getV y).toNat) % 256))) 15
        (if (s.getV x).toNat ≥ (s.getV y).toNat then 1 else 0)) ∧
    decodesTo (ofNibbles 0x8 x y 0x7) (.subnReg x y) ∧
    exec (.subnReg x y) s = .next
      (wroteV (wroteV s x (BitVec.ofNat 8 (((s.getV y).toNat + 256 - (s.getV x).toNat) % 256))) 15
        (if (s.getV y).toNat ≥ (s.getV x).toNat then 1 else 0))

/-- O31. SHR and SHL: VF gets the lost bit, then VX the shifted value; VY is neither read nor written (R128, R130; for
VX = VF the spec's decision D2, log entry 14). -/
def Obligations.ShiftsSetLostBit : Prop :=
  ∀ (s : State) (x y : Nibble),
    decodesTo (ofNibbles 0x8 x y 0x6) (.shr x y) ∧
    exec (.shr x y) s = .next
      (wroteV (wroteV s 15 (BitVec.ofNat 8 ((s.getV x).toNat % 2))) x (BitVec.ofNat 8 ((s.getV x).toNat / 2))) ∧
    decodesTo (ofNibbles 0x8 x y 0xE) (.shl x y) ∧
    exec (.shl x y) s = .next
      (wroteV (wroteV s 15 (BitVec.ofNat 8 ((s.getV x).toNat / 128))) x
        (BitVec.ofNat 8 ((s.getV x).toNat * 2 % 256)))

/-- O32.  VF as the destination: the table of R133, row by row.  The rows of 8FY6 and 8FYE are the spec's own decision D2
(log entry 14). -/
def Obligations.DestinationVfTable : Prop :=
  ∀ (s : State) (y : Nibble) (nn : Byte),
    (∃ t, exec (.ldImm 15 nn) s = .next t ∧ t.getV 15 = nn) ∧
    (∃ t, exec (.addImm 15 nn) s = .next t ∧ (t.getV 15).toNat = ((s.getV 15).toNat + nn.toNat) % 256) ∧
    (∃ t, exec (.ldReg 15 y) s = .next t ∧ t.getV 15 = s.getV y) ∧
    (∃ t, exec (.orReg 15 y) s = .next t ∧ t.getV 15 = s.getV 15 ||| s.getV y) ∧
    (∃ t, exec (.andReg 15 y) s = .next t ∧ t.getV 15 = s.getV 15 &&& s.getV y) ∧
    (∃ t, exec (.xorReg 15 y) s = .next t ∧ t.getV 15 = s.getV 15 ^^^ s.getV y) ∧
    (∃ t, exec (.addReg 15 y) s = .next t ∧
      t.getV 15 = if (s.getV 15).toNat + (s.getV y).toNat > 255 then 1 else 0) ∧
    (∃ t, exec (.subReg 15 y) s = .next t ∧ t.getV 15 = if (s.getV 15).toNat ≥ (s.getV y).toNat then 1 else 0) ∧
    (∃ t, exec (.subnReg 15 y) s = .next t ∧ t.getV 15 = if (s.getV y).toNat ≥ (s.getV 15).toNat then 1 else 0) ∧
    (∃ t, exec (.shr 15 y) s = .next t ∧ (t.getV 15).toNat = (s.getV 15).toNat / 2) ∧
    (∃ t, exec (.shl 15 y) s = .next t ∧ (t.getV 15).toNat = (s.getV 15).toNat * 2 % 256) ∧
    (∃ t, exec (.rnd 15 nn) s = .next t ∧ t.getV 15 = Config.rnd s.rndCount &&& nn)

/-- O33. RND: VX gets the random byte AND NN, one byte is consumed, and nothing else changes; with NN = 0 the result
is 0 whatever the byte (R131, R249; the byte is the model's free value, log entry 4). -/
def Obligations.RandomIsMasked : Prop :=
  ∀ (s : State) (x : Nibble) (nn : Byte),
    decodesTo (ofXnn 0xC x nn) (.rnd x nn) ∧
    exec (.rnd x nn) s = .next (wroteV { s with rndCount := s.rndCount + 1 } x (Config.rnd s.rndCount &&& nn)) ∧
    ∀ t, exec (.rnd x 0) s = .next t → t.getV x = 0

/-! ### The index register and memory transfer (43_index_memory.md) -/

/-- O34.  The three writers of I: NNN, I + VX mod 65536 with no flag, 0x050 + 5 * VX unmasked; nothing else (R150 to
R152). -/
def Obligations.IndexWrites : Prop :=
  ∀ (s : State) (nnn : Addr12) (x : Nibble),
    decodesTo (ofAddr 0xA nnn) (.ldI nnn) ∧ exec (.ldI nnn) s = .next (wroteI s nnn.toNat) ∧
    decodesTo (ofXnn 0xF x 0x1E) (.addI x) ∧
    exec (.addI x) s = .next (wroteI s ((s.i.toNat + (s.getV x).toNat) % 65536)) ∧
    decodesTo (ofXnn 0xF x 0x29) (.ldF x) ∧ exec (.ldF x) s = .next (wroteI s (0x050 + 5 * (s.getV x).toNat))

/-- O35. FX33: the three decimal digits at I, I + 1, I + 2, every other byte of memory and everything else unchanged;
MemRange, with nothing written, where I + 2 > 0xFFF (R153; the fault is the spec's decision D3, log entry 8). -/
def Obligations.BcdStoresDigits : Prop :=
  ∀ (s : State) (x : Nibble),
    decodesTo (ofXnn 0xF x 0x33) (.ldB x) ∧
    (s.i.toNat + 2 ≤ 0xFFF → ∃ t, exec (.ldB x) s = .next t ∧
      (t.mem.get s.i.toNat).toNat = (s.getV x).toNat / 100 ∧
      (t.mem.get (s.i.toNat + 1)).toNat = (s.getV x).toNat / 10 % 10 ∧
      (t.mem.get (s.i.toNat + 2)).toNat = (s.getV x).toNat % 10 ∧
      (∀ a, a < s.i.toNat ∨ s.i.toNat + 2 < a → t.mem.get a = s.mem.get a) ∧
      t = { s with
        mem := t.mem, trace := s.trace ++ [.mem s.i.toNat, .mem (s.i.toNat + 1), .mem (s.i.toNat + 2)] }) ∧
    (0xFFF < s.i.toNat + 2 → exec (.ldB x) s = .next (faulted s .memrange))

/-- O36. FX55: V0 to VX at I to I + X, every other byte of memory and everything else unchanged, I too; MemRange, with
nothing written, where I + X > 0xFFF (R154; the fault is the spec's decision D3, log entry 8; that I stays is D12, log
entry 21). -/
def Obligations.BlockStore : Prop :=
  ∀ (s : State) (x : Nibble),
    decodesTo (ofXnn 0xF x 0x55) (.stRegs x) ∧
    (s.i.toNat + x.toNat ≤ 0xFFF → ∃ t, exec (.stRegs x) s = .next t ∧
      (∀ r : Nibble, r.toNat ≤ x.toNat → t.mem.get (s.i.toNat + r.toNat) = s.getV r) ∧
      (∀ a, a < s.i.toNat ∨ s.i.toNat + x.toNat < a → t.mem.get a = s.mem.get a) ∧
      t = { s with
        mem := t.mem, trace := s.trace ++ (List.range (x.toNat + 1)).map fun r => .mem (s.i.toNat + r) }) ∧
    (0xFFF < s.i.toNat + x.toNat → exec (.stRegs x) s = .next (faulted s .memrange))

/-- O37. FX65: V0 to VX from I to I + X, registers above VX, memory, I and everything else unchanged; MemRange, with
no register written, where I + X > 0xFFF (R155; the fault is the spec's decision D3, log entry 8; that I stays is D12,
log entry 21). -/
def Obligations.BlockLoad : Prop :=
  ∀ (s : State) (x : Nibble),
    decodesTo (ofXnn 0xF x 0x65) (.ldRegs x) ∧
    (s.i.toNat + x.toNat ≤ 0xFFF → ∃ t, exec (.ldRegs x) s = .next t ∧
      (∀ r : Nibble, r.toNat ≤ x.toNat → t.getV r = s.mem.get (s.i.toNat + r.toNat)) ∧
      (∀ r : Nibble, x.toNat < r.toNat → t.getV r = s.getV r) ∧
      t = { s with v := t.v, trace := s.trace ++ (List.range (x.toNat + 1)).map .v }) ∧
    (0xFFF < s.i.toNat + x.toNat → exec (.ldRegs x) s = .next (faulted s .memrange))

/-- O38.  FX65 undoes FX55: after V0 to VX were stored, any registers whatever are loaded back to what they held, where I
was not changed between (R154, R155). -/
def Obligations.BlockLoadUndoesBlockStore : Prop :=
  ∀ (s t : State) (x : Nibble) (regs : Vector Byte 16), s.i.toNat + x.toNat ≤ 0xFFF → exec (.stRegs x) s = .next t →
    ∃ u, exec (.ldRegs x) { t with v := regs } = .next u ∧
      ∀ r : Nibble, r.toNat ≤ x.toNat → u.getV r = s.getV r

/-- O39. Fetch is coherent with stores: after an FX33 or an FX55 that completes, wherever its bytes fall on the word at PC,
on both bytes of it, on one or on none, the next cycle fetches that word as the store leaves it, and executes it (R50). -/
def Obligations.StoredWordIsFetched : Prop :=
  ∀ (s : State) (x : Nibble), s.pc.toNat ≤ 0xFFE →
    (s.i.toNat + 2 ≤ 0xFFF → ∃ t, exec (.ldB x) s = .next t ∧ fetchesStored s t (digitsOf s x)) ∧
    (s.i.toNat + x.toNat ≤ 0xFFF → ∃ t, exec (.stRegs x) s = .next t ∧ fetchesStored s t (registersTo s x))

/-! ### Display (44_display.md) -/

/-- O40.  CLS: every cell 0 and one Clear event, nothing else, VF too (R170). -/
def Obligations.ClearScreen : Prop :=
  ∀ s : State, decodesTo 0x00E0 .cls ∧
    ∃ t, exec .cls s = .next t ∧ (∀ x y, t.cell x y = false) ∧ t = { s with fb := t.fb, out := s.out ++ [.clear] }

/-- O41. DXYN: the framebuffer is XORed with the sprite, wrapped on both axes; VF is 1 exactly when a covered cell was
1; one Pixel event for each set bit, in order, with the new value; no other register, no memory byte and nothing else
changes; MemRange, with VF not reset, where N > 0 and I + N - 1 > 0xFFF (R171). Where VX or VY is VF it rests on the
spec's own decision D2 (log entry 14), and the fault on D3 (log entry 8). -/
def Obligations.DrawXorsSprite : Prop :=
  ∀ (s : State) (x y n : Nibble),
    decodesTo (ofNibbles 0xD x y n) (.drw x y n) ∧
    (n.toNat = 0 ∨ s.i.toNat + n.toNat - 1 ≤ 0xFFF → ∃ t, exec (.drw x y n) s = .next t ∧
      (∀ cx cy, t.cell cx cy = true ↔ ¬ (s.cell cx cy = true ↔ covers s x y n cx cy)) ∧
      ((∃ cx cy, s.cell cx cy = true ∧ covers s x y n cx cy) → t.getV 15 = 1) ∧
      ((∀ cx cy, s.cell cx cy = true → ¬ covers s x y n cx cy) → t.getV 15 = 0) ∧
      (∀ r : Nibble, r ≠ 15 → t.getV r = s.getV r) ∧
      t.out = s.out ++ pixelEvents s x y n ∧
      t = { s with v := t.v, fb := t.fb, out := t.out, trace := t.trace }) ∧
    (n.toNat ≠ 0 ∧ 0xFFF < s.i.toNat + n.toNat - 1 → exec (.drw x y n) s = .next (faulted s .memrange))

/-- O42. Drawing the same sprite twice at the same anchor restores the framebuffer; the second draw's VF is 1 exactly
when a covered cell was 0 before the first. That clause follows R171 and departs from what R172 infers: the model's
reading, DEDUCED (log entry 26). VX and VY other than VF, whose value the first draw changes. -/
def Obligations.DrawTwiceRestores : Prop :=
  ∀ (s : State) (x y n : Nibble), x ≠ 15 → y ≠ 15 → n.toNat = 0 ∨ s.i.toNat + n.toNat - 1 ≤ 0xFFF →
    ∃ t u, exec (.drw x y n) s = .next t ∧ exec (.drw x y n) t = .next u ∧ u.fb = s.fb ∧
      ((∃ cx cy, covers s x y n cx cy ∧ s.cell cx cy = false) → u.getV 15 = 1) ∧
      ((∀ cx cy, covers s x y n cx cy → s.cell cx cy = true) → u.getV 15 = 0)

/-- O43. R172's own inference, that the second of two draws that complete sets VF to 1 wherever the sprite has a set bit.
It fails of R171's operation: where every covered cell was 1 before the first draw, the second meets none (log entry 26). -/
def Obligations.SecondDrawAlwaysCollides : Prop :=
  ∀ (s t u : State) (x y n : Nibble), x ≠ 15 → y ≠ 15 → n.toNat = 0 ∨ s.i.toNat + n.toNat - 1 ≤ 0xFFF →
    exec (.drw x y n) s = .next t → exec (.drw x y n) t = .next u →
    (∃ cx cy, covers s x y n cx cy) → u.getV 15 = 1

/-! ### Keypad and timers (45_keypad_timer.md, 60_exceptions.md) -/

/-- O44. The key skips: the key is the value of VX, KeyRange with nothing written where VX > 15 (R180, R181; the fault
is the spec's decision D7, log entry 8). -/
def Obligations.KeySkips : Prop :=
  ∀ (s : State) (x : Nibble),
    decodesTo (ofXnn 0xE x 0x9E) (.skp x) ∧ decodesTo (ofXnn 0xE x 0xA1) (.sknp x) ∧
    (∀ h : (s.getV x).toNat < 16,
      exec (.skp x) s = .next (skipped (s.key[(s.getV x).toNat]'h) s) ∧
      exec (.sknp x) s = .next (skipped (!s.key[(s.getV x).toNat]'h) s)) ∧
    (15 < (s.getV x).toNat →
      exec (.skp x) s = .next (faulted s .keyrange) ∧ exec (.sknp x) s = .next (faulted s .keyrange))

/-- O45.  FX0A: the lowest key down goes to VX; with none down PC goes back to this FX0A; nothing else changes (R182). -/
def Obligations.KeyWait : Prop :=
  ∀ (s : State) (x : Nibble),
    decodesTo (ofXnn 0xF x 0x0A) (.ldVxK x) ∧
    (∀ k : Fin 16, s.key[k.val] = true → (∀ j : Fin 16, j.val < k.val → s.key[j.val] = false) →
      exec (.ldVxK x) s = .next (wroteV s x (BitVec.ofNat 8 k.val))) ∧
    ((∀ k : Fin 16, s.key[k.val] = false) →
      exec (.ldVxK x) s = .next (wrotePc s (s.pc.toNat + 65536 - 2)))

/-- O46.  FX07, FX15, FX18: VX = DT, DT = VX, ST = VX, nothing else and no event (R183 to R185). -/
def Obligations.TimerMoves : Prop :=
  ∀ (s : State) (x : Nibble),
    decodesTo (ofXnn 0xF x 0x07) (.ldVxDt x) ∧ exec (.ldVxDt x) s = .next (wroteV s x s.dt) ∧
    decodesTo (ofXnn 0xF x 0x15) (.ldDtVx x) ∧
    exec (.ldDtVx x) s = .next { s with dt := s.getV x, trace := s.trace ++ [.dt] } ∧
    decodesTo (ofXnn 0xF x 0x18) (.ldStVx x) ∧
    exec (.ldStVx x) s = .next { s with st := s.getV x, trace := s.trace ++ [.st] }

/-- O47. The timer tick of a running machine: each timer down by one unless 0, ToneOff where ST reaches 0, ToneOn
where it does not, no event where it was 0, nothing else; a machine that is not running has no tick (R243; that such
an event is taken with no effect is the model's reading, log entry 3, and the nesting of the audio events D24, log
entry 22). -/
def Obligations.TimerTick : Prop :=
  ∀ (s : State) (rest : List Input), s.inputs = .timerTick :: rest →
    (s.sched = .running → step s = .next { s with
      inputs := rest
      dt := BitVec.ofNat 8 (s.dt.toNat - 1)
      st := BitVec.ofNat 8 (s.st.toNat - 1)
      out := s.out ++ (if s.st.toNat = 0 then [] else if s.st.toNat = 1 then [.toneOff] else [.toneOn])
      trace := s.trace ++ (if s.dt.toNat = 0 then [] else [.dt]) ++ (if s.st.toNat = 0 then [] else [.st]) }) ∧
    (s.sched ≠ .running → step s = .next { s with inputs := rest })

/-- O48. N timer ticks of a running machine take N from each timer, down to 0, and from ST = N they give N - 1 ToneOn
and one ToneOff (R245; for the audio events R244, the spec's decision D24, log entry 22). -/
def Obligations.TicksCountDown : Prop :=
  ∀ (s : State) (k : Nat), s.sched = .running → s.inputs = List.replicate k .timerTick →
    ∃ t, core.run k s = .next t ∧ t.dt.toNat = s.dt.toNat - k ∧ t.st.toNat = s.st.toNat - k ∧
      (s.st.toNat = k → 0 < k → t.out = s.out ++ List.replicate (k - 1) .toneOn ++ [.toneOff])

/-! ### The host (46_host_ops.md) -/

/-- O49. `loadROM`: rejected with nothing changed above 3584 bytes; else the bytes at 0x200, PC and ROMMAX, and every
other byte and everything else unchanged (R201, R212, R214; what else stays is the spec's decision D30, log entry 15).
-/
def Obligations.LoadRom : Prop :=
  ∀ (s : State) (bytes : List Byte),
    (3584 < bytes.length → hostOp (.loadROM bytes) s = .next { s with
      results := s.results ++ [.rejected (.romTooLong bytes.length)] }) ∧
    (bytes.length ≤ 3584 → ∃ t, hostOp (.loadROM bytes) s = .next t ∧
      (∀ k (h : k < bytes.length), t.mem.get (0x200 + k) = bytes[k]) ∧
      (∀ a, a < 0x200 ∨ 0x200 + bytes.length ≤ a → t.mem.get a = s.mem.get a) ∧
      t.romMax = (if bytes.length = 0 then 0x200 else 0x200 + bytes.length - 1) ∧
      t = { s with mem := t.mem, pc := 0x200, romMax := t.romMax, trace := t.trace })

/-- O50. `reset(romSize)` within the host's duty: the state of power-on, but SCHED, RATE, BP and LASTBP stay, ROMMAX
is that of romSize, and no event is emitted (R202; what stays is the spec's decision D16, log entry 15). -/
def Obligations.HostReset : Prop :=
  ∀ (s : State) (romSize : Nat), romSize ≤ 3584 → ∃ t, hostOp (.reset romSize) s = .next t ∧
    t = { State.reset with
      romMax := if romSize = 0 then 0x200 else 0x200 + romSize - 1
      sched := s.sched, rate := s.rate, bp := s.bp, lastBp := s.lastBp
      inputs := s.inputs, rndCount := s.rndCount, faults := s.faults, out := s.out, results := s.results
      trace := t.trace }

/-- O51. `run`, `stop`, `changeSpeed`: SCHED and RATE and nothing else; the latter two are silent no-ops in the wrong
state (R203, R204, R205; the spec's decisions D18 and D19). -/
def Obligations.RunStopChangeSpeed : Prop :=
  ∀ (s : State) (rateHz : Rat),
    (0 < rateHz → s.sched ≠ .running →
      hostOp (.run rateHz) s = .next { s with sched := .running, rate := rateHz } ∧
      hostOp .stop s = .next s ∧ hostOp (.changeSpeed rateHz) s = .next s) ∧
    (0 < rateHz → s.sched = .running →
      hostOp .stop s = .next { s with sched := .idle } ∧
      hostOp (.changeSpeed rateHz) s = .next { s with rate := rateHz })

/-- O52. `step()`: STEP_BUSY and nothing else while running; otherwise exactly one cycle, and PC after it is answered
(R206; the sentinel is a tag of the model's, D17, log entry 12). -/
def Obligations.HostStep : Prop :=
  ∀ s : State,
    (s.sched = .running → hostOp .step s = .next { s with results := s.results ++ [.stepBusy] }) ∧
    (s.sched ≠ .running → ∃ t, cycle s = .next t ∧
      hostOp .step s = .next { t with results := t.results ++ [.steppedTo t.pc] })

/-- O53.  `setKeyDown`: that key's flag and nothing else (R207). -/
def Obligations.SetKeyDown : Prop :=
  ∀ (s : State) (k : Fin 16) (isDown : Bool),
    hostOp (.setKeyDown k.val isDown) s = .next { s with key := s.key.set k.val isDown k.isLt }

/-- O54.  Breakpoint `set`, `remove`, `clear`, `list`: the bounds are tested on the address as given, the even address
below it goes in or out of the set, a rejected operation changes nothing (R208 to R211). -/
def Obligations.BreakpointOperations : Prop :=
  ∀ (s : State) (addr : Int),
    ((addr > s.romMax ∨ addr < 0x200) →
      hostOp (.bpSet addr) s = .next { s with results := s.results ++ [.rejected (.outOfRange addr)] } ∧
      hostOp (.bpRemove addr) s = .next { s with results := s.results ++ [.rejected (.outOfRange addr)] }) ∧
    (0x200 ≤ addr → addr ≤ s.romMax →
      (∃ t, hostOp (.bpSet addr) s = .next t ∧ (∀ a : Nat, a ∈ t.bp ↔ a ∈ s.bp ∨ (a : Int) = addr - addr % 2) ∧
        t = { s with bp := t.bp }) ∧
      ((∃ a ∈ s.bp, (a : Int) = addr - addr % 2) → ∃ t, hostOp (.bpRemove addr) s = .next t ∧
        (∀ a : Nat, a ∈ t.bp ↔ a ∈ s.bp ∧ (a : Int) ≠ addr - addr % 2) ∧ t = { s with bp := t.bp }) ∧
      ((∀ a ∈ s.bp, (a : Int) ≠ addr - addr % 2) →
        hostOp (.bpRemove addr) s = .next { s with results := s.results ++ [.rejected (.notFound addr)] })) ∧
    hostOp .bpClear s = .next { s with bp := [] } ∧
    hostOp .bpList s = .next { s with results := s.results ++ [.breakpoints s.bp] }

/-- O55. The memory accessor reads the byte and changes nothing (R213; one byte a read is the model's choice, log
entry 24). -/
def Obligations.MemoryAccessorReads : Prop :=
  ∀ (s : State) (a : Nat), a ≤ 0xFFF →
    hostOp (.peek a) s = .next { s with results := s.results ++ [.byte (s.mem.get a)] }

/-- O56.  A step is refused exactly where the host breaks one of its duties (R218, U12, U13; that it is then refused is the
model's reading, log entry 13). No refusal of a word 5XYN or 9XYN is among them, by the spec's decision D8 (log entry 7). A
step never ends in an outcome fault, because each fault of the hardware is a halt, a next state: the model's form, by
which Machine.Fault has no constructor (log entry 8). -/
def Obligations.RefusedExactlyOnBrokenDuty : Prop :=
  ∀ s : State,
    ((∃ r, step s = .refused r) ↔
      (∃ q, s.nextInput = some (.host (.run q)) ∧ (s.sched = .running ∨ ¬ 0 < q)) ∨
      (∃ q, s.nextInput = some (.host (.changeSpeed q)) ∧ ¬ 0 < q) ∨
      (∃ k d, s.nextInput = some (.host (.setKeyDown k d)) ∧ 15 < k) ∨
      (∃ n, s.nextInput = some (.host (.reset n)) ∧ 3584 < n) ∨
      (∃ a, s.nextInput = some (.host (.peek a)) ∧ 0xFFF < a)) ∧
    ∀ f, step s ≠ .fault f

/-- O57. The transitions of SCHED: the table of R253, for every event the step can take; a tick that is due while its
activity is cancelled changes nothing (log entry 3). Where no event comes, which is only in a machine that is not
running, nothing at all changes: a core that is never run never executes (R218; the form is log entry 2). -/
def Obligations.SchedulerTransitions : Prop :=
  (∀ s t : State, step s = .next t →
    match s.nextInput with
    | some .cycleTick => t.sched = s.sched ∨ (s.sched = .running ∧ ∃ r, t.sched = .halted r)
    | some .timerTick => t.sched = s.sched
    | some (.host (.run _)) => s.sched ≠ .running ∧ t.sched = .running
    | some (.host .stop) => (s.sched = .running ∧ t.sched = .idle) ∨ (s.sched ≠ .running ∧ t.sched = s.sched)
    | some (.host .step) => t.sched = s.sched ∨ (s.sched ≠ .running ∧ ∃ r, t.sched = .halted r)
    | some (.host _) => t.sched = s.sched
    | none => s.sched ≠ .running ∧ t = s) ∧
  ∀ (s : State) (k : Nat), s.inputs = [] → s.sched ≠ .running → core.run k s = .next s

/-! ### The end of a run (70_reset_and_hazards.md) -/

/-- O58. A run that has reached a jump to itself has ended: no tick, no `step()`, no key and no lack of events takes it away from
there, and only DT, ST, the keys, the marker and the records of the model may change (R283, the spec's decision D23, log entry 17). -/
def Obligations.SelfJumpIsAnEnd : Prop :=
  ∀ s t : State, s.atSelfJump → ¬ (s.pc.toNat ∈ s.bp ∧ s.lastBp ≠ some s.pc) →
    (s.nextInput = none ∨ s.nextInput = some .cycleTick ∨ s.nextInput = some .timerTick ∨
      s.nextInput = some (.host .step) ∨ ∃ k d, s.nextInput = some (.host (.setKeyDown k d))) →
    step s = .next t →
      t.atSelfJump ∧ ¬ (t.pc.toNat ∈ t.bp ∧ t.lastBp ≠ some t.pc) ∧
      t = { s with
        dt := t.dt, st := t.st, key := t.key, lastBp := t.lastBp, inputs := s.inputs.tail
        out := t.out, trace := t.trace, results := t.results }

/-- O59. A run stopped at an address by a breakpoint is one whose last step was the breakpoint halt there: it ran a cycle
that started at that address, in BP and not the one last halted at, and left PC and the marker there (R283, R82, the
spec's decision D23, log entry 17). -/
def Obligations.StoppedAtIsTheHalt : Prop :=
  ∀ (s t : State) (a : Word), s.stoppedAt t a →
    (s.nextInput = some .cycleTick ∧ s.sched = .running ∨ s.nextInput = some (.host .step) ∧ s.sched ≠ .running) ∧
    s.pc = a ∧ a.toNat ∈ s.bp ∧ s.lastBp ≠ some a ∧ t.pc = a ∧ t.lastBp = some a ∧ t.mem = s.mem ∧ t.v = s.v

/-- O60. A state halted by a fault is never an end, and once a fault is on record no later state is one, in either form
(R235, R283; the spec's decisions D3 to D7 and D23, log entries 8, 9 and 17). -/
def Obligations.FaultedRunNeverEnds : Prop :=
  (∀ (s : State) (r : HaltReason), s.sched = .halted r → r.isFault = true → ¬ s.atSelfJump) ∧
  ∀ s t : State, s.faults ≠ [] → step s = .next t → t.faults ≠ [] ∧ ¬ t.atSelfJump ∧ ∀ a, ¬ s.stoppedAt t a
end

