-- ==== Sys2Proof/Laws/Decode.lean ====
section
/-! SUPPORT. The fields of an encoded word, and that the rows of the opcode map are disjoint (30_encoding.md R61, R65). -/

namespace Sys2Proof

/-- The high part of a concatenation. -/
theorem extract_append_high {a b : Nat} (x : BitVec a) (y : BitVec b) (k n : Nat) (h : b ≤ k) :
    (x ++ y).extractLsb' k n = x.extractLsb' (k - b) n := by
  ext i hi
  simp only [BitVec.getElem_extractLsb', BitVec.getLsbD_append]
  rw [if_neg (by omega)]
  congr 1; omega

/-- The low part of a concatenation. -/
theorem extract_append_low {a b : Nat} (x : BitVec a) (y : BitVec b) (k n : Nat) (h : k + n ≤ b) :
    (x ++ y).extractLsb' k n = y.extractLsb' k n := by
  ext i hi
  simp only [BitVec.getElem_extractLsb', BitVec.getLsbD_append]
  rw [if_pos (by omega)]

/-- The whole of a bit vector. -/
theorem extract_whole {a : Nat} (x : BitVec a) : x.extractLsb' 0 a = x := by
  ext i hi; simp

/-- The fields of a word of format ADDR (R62). -/
theorem fieldsOf_ofAddr (c : Nibble) (nnn : Addr12) :
    fieldsOf (ofAddr c nnn) =
      ⟨c, nnn.extractLsb' 8 4, nnn.extractLsb' 4 4, nnn.extractLsb' 0 4, nnn.extractLsb' 0 8, nnn⟩ := by
  simp only [fieldsOf, ofAddr, Fields.mk.injEq]
  refine ⟨?_, ?_, ?_, ?_, ?_, ?_⟩
  · rw [extract_append_high _ _ _ _ (by decide), extract_whole]
  all_goals rw [extract_append_low _ _ _ _ (by decide)]
  exact extract_whole nnn

/-- The fields of a word of format XNN or XSUB (R62). -/
theorem fieldsOf_ofXnn (c x : Nibble) (nn : Byte) :
    fieldsOf (ofXnn c x nn) = ⟨c, x, nn.extractLsb' 4 4, nn.extractLsb' 0 4, nn, x ++ nn⟩ := by
  simp only [fieldsOf, ofXnn, Fields.mk.injEq]
  refine ⟨?_, ?_, ?_, ?_, ?_, ?_⟩
  · rw [extract_append_high _ _ _ _ (by decide), extract_append_high _ _ _ _ (by decide), extract_whole]
  · rw [extract_append_high _ _ _ _ (by decide), extract_append_low _ _ _ _ (by decide), extract_whole]
  · rw [extract_append_low _ _ _ _ (by decide)]
  · rw [extract_append_low _ _ _ _ (by decide)]
  · rw [extract_append_low _ _ _ _ (by decide), extract_whole]
  · ext i hi; grind

/-- The fields of a word of formats XY and XYN (R62). -/
theorem fieldsOf_ofNibbles (c x y n : Nibble) :
    fieldsOf (ofNibbles c x y n) = ⟨c, x, y, n, y ++ n, x ++ y ++ n⟩ := by
  have e : ofNibbles c x y n = ofXnn c x (y ++ n) := by
    simp only [ofNibbles, ofXnn]; ext i hi; grind
  rw [e, fieldsOf_ofXnn]
  simp only [Fields.mk.injEq, true_and]
  refine ⟨?_, ?_, ?_⟩
  · rw [extract_append_high _ _ _ _ (by decide), extract_whole]
  · rw [extract_append_low _ _ _ _ (by decide), extract_whole]
  · ext i hi; grind

/-- Every field of a word is a slice of it, and the slices make it up again (R71). -/
theorem ofNibbles_fieldsOf (w : Word) :
    ofNibbles (fieldsOf w).cls (fieldsOf w).x (fieldsOf w).y (fieldsOf w).n = w := by
  ext i hi
  simp only [ofNibbles, fieldsOf]
  grind

/-- One instruction of each row of the opcode map, in the map's order (R65). -/
def rowSamples : List Instr :=
  [.cls, .ret, .jp 0, .call 0, .seImm 0 0, .sneImm 0 0, .seReg 0 0 0, .ldImm 0 0, .addImm 0 0, .ldReg 0 0, .orReg 0 0,
   .andReg 0 0, .xorReg 0 0, .addReg 0 0, .subReg 0 0, .shr 0 0, .subnReg 0 0, .shl 0 0, .sneReg 0 0 0, .ldI 0, .jpV0 0,
   .rnd 0 0, .drw 0 0 0, .skp 0, .sknp 0, .ldVxDt 0, .ldVxK 0, .ldDtVx 0, .ldStVx 0, .addI 0, .ldF 0, .ldB 0,
   .stRegs 0, .ldRegs 0]

/-- The rows are disjoint: two of them differ in a bit that both masks keep (R65). -/
theorem opcode_rows_disjoint :
    (rowSamples.map rowOf).Pairwise fun p q => p.bits &&& (p.mask &&& q.mask) ≠ q.bits &&& (p.mask &&& q.mask) := by
  decide +kernel

end Sys2Proof
end

