-- ==== Sys2Proof/Laws/Memory.lean ====
section
/-! SUPPORT. The laws of memory: what a read sees after a write, that every operation keeps the canonical form, that the
form is canonical, and what the range check says. -/

namespace Sys2Proof.Machine

/-! ### A read after a write -/

theorem Memory.get_insert_same (m : Memory) (a : Nat) (b : Byte) : (m.insert a b).get a = b := by
  induction m with
  | nil => simp [Memory.insert, Memory.get]
  | cons c rest ih =>
    obtain ⟨c, d⟩ := c
    by_cases h₁ : a < c
    · simp [Memory.insert, Memory.get, h₁]
    · by_cases h₂ : a = c
      · simp [Memory.insert, Memory.get, h₂]
      · simpa [Memory.insert, Memory.get, h₁, h₂, Ne.symm h₂] using ih

theorem Memory.get_insert_of_ne (m : Memory) {a x : Nat} (b : Byte) (h : x ≠ a) :
    (m.insert a b).get x = m.get x := by
  induction m with
  | nil => simp [Memory.insert, Memory.get, Ne.symm h]
  | cons c rest ih =>
    obtain ⟨c, d⟩ := c
    by_cases h₁ : a < c
    · simp [Memory.insert, Memory.get, h₁, Ne.symm h]
    · by_cases h₂ : a = c
      · subst h₂; simp [Memory.insert, Memory.get, Ne.symm h]
      · simp [Memory.insert, Memory.get, h₁, h₂, ih]

theorem Memory.get_erase_same (m : Memory) (a : Nat) :
    Memory.get (m.filter (fun c => c.1 != a)) a = unlisted a := by
  induction m with
  | nil => rfl
  | cons c rest ih =>
    obtain ⟨c, d⟩ := c
    by_cases h : c = a <;> simp [Memory.get, h, ih]

theorem Memory.get_erase_of_ne (m : Memory) {a x : Nat} (h : x ≠ a) :
    Memory.get (m.filter (fun c => c.1 != a)) x = m.get x := by
  induction m with
  | nil => rfl
  | cons c rest ih =>
    obtain ⟨c, d⟩ := c
    by_cases h₁ : c = a
    · subst h₁; simp [Memory.get, Ne.symm h, ih]
    · simp [Memory.get, h₁, ih]

/-- A read gives what was last written there. -/
@[simp] theorem Memory.get_put_same (m : Memory) (a : Nat) (b : Byte) : (m.put a b).get a = b := by
  unfold Memory.put
  split
  · next h => rw [Memory.get_erase_same, h]
  · exact Memory.get_insert_same m a b

/-- A write leaves every other address alone. -/
theorem Memory.get_put_of_ne (m : Memory) {a x : Nat} (b : Byte) (h : x ≠ a) : (m.put a b).get x = m.get x := by
  unfold Memory.put
  split
  · exact Memory.get_erase_of_ne m h
  · exact Memory.get_insert_of_ne m b h

/-- What a read sees after bytes were stored at `a`: the byte stored there, else what was there before. -/
theorem Memory.get_putAll (m : Memory) (a : Nat) (bs : List Byte) (x : Nat) :
    (m.putAll a bs).get x = if a ≤ x then (bs[x - a]?).getD (m.get x) else m.get x := by
  induction bs generalizing m a with
  | nil => simp [Memory.putAll]
  | cons b bs ih =>
    rw [Memory.putAll, ih]
    rcases Nat.lt_trichotomy x a with h | h | h
    · rw [if_neg (by omega), if_neg (by omega), Memory.get_put_of_ne m b (by omega)]
    · subst h; simp
    · have e : x - a = (x - (a + 1)) + 1 := by omega
      rw [if_pos (by omega), if_pos (by omega), Memory.get_put_of_ne m b (by omega), e, List.getElem?_cons_succ]

/-- Storing bytes leaves every address outside them alone. -/
theorem Memory.get_putAll_outside (m : Memory) {a x : Nat} {bs : List Byte} (h : x < a ∨ a + bs.length ≤ x) :
    (m.putAll a bs).get x = m.get x := by
  rw [Memory.get_putAll]
  split
  · rw [List.getElem?_eq_none (by omega)]; rfl
  · rfl

/-! ### The canonical form is kept -/

/-- The memory after power-on is in canonical form. -/
theorem Memory.wf_nil : Memory.wf [] := by simp [Memory.wf]

theorem Memory.mem_insert {m : Memory} {a : Nat} {b : Byte} {c : Host.Cell} (h : c ∈ m.insert a b) :
    c = (a, b) ∨ c ∈ m := by
  induction m with
  | nil => simpa [Memory.insert] using h
  | cons d rest ih =>
    obtain ⟨d, e⟩ := d
    simp only [Memory.insert] at h
    split at h
    · simpa using h
    · split at h
      · rcases List.mem_cons.1 h with h | h
        · exact .inl h
        · exact .inr (List.mem_cons_of_mem _ h)
      · rcases List.mem_cons.1 h with h | h
        · exact .inr (by rw [h]; exact List.mem_cons_self)
        · exact (ih h).imp id (List.mem_cons_of_mem _)

theorem Memory.wf_insert {m : Memory} {a : Nat} {b : Byte} (hm : m.wf) (ha : a < memSize) (hb : b ≠ unlisted a) :
    (m.insert a b).wf := by
  refine ⟨?_, fun c hc => ?_⟩
  · obtain ⟨hs, -⟩ := hm
    induction m with
    | nil => simp [Memory.insert]
    | cons c rest ih =>
      obtain ⟨c, d⟩ := c
      obtain ⟨hhead, htail⟩ := List.pairwise_cons.1 hs
      simp only [Memory.insert]
      split
      · next h =>
        refine List.pairwise_cons.2 ⟨fun e he => ?_, hs⟩
        rcases List.mem_cons.1 he with rfl | he
        · exact h
        · exact Nat.lt_trans h (hhead e he)
      · split
        · next h => exact List.pairwise_cons.2 ⟨fun e he => h ▸ hhead e he, htail⟩
        · refine List.pairwise_cons.2 ⟨fun e he => ?_, ih htail⟩
          rcases Memory.mem_insert he with rfl | he
          · show c < a; omega
          · exact hhead e he
  · rcases Memory.mem_insert hc with rfl | hc
    · exact ⟨ha, hb⟩
    · exact hm.2 c hc

/-- Storing one byte in memory keeps the canonical form. -/
theorem Memory.wf_put {m : Memory} {a : Nat} (b : Byte) (hm : m.wf) (ha : a < memSize) : (m.put a b).wf := by
  unfold Memory.put
  split
  · exact ⟨hm.1.sublist List.filter_sublist, fun c hc => hm.2 c (List.mem_of_mem_filter hc)⟩
  · next h => exact Memory.wf_insert hm ha h

/-- Storing bytes that all exist keeps the canonical form. -/
theorem Memory.wf_putAll {m : Memory} {a : Nat} {bs : List Byte} (hm : m.wf) (h : bs = [] ∨ a + bs.length ≤ memSize) :
    (m.putAll a bs).wf := by
  induction bs generalizing m a with
  | nil => exact hm
  | cons b bs ih =>
    have h' : a + bs.length + 1 ≤ memSize := by simpa [Nat.add_assoc] using h
    exact ih (Memory.wf_put b hm (by omega)) (.inr (by omega))

/-! ### The form is canonical -/

theorem Memory.get_of_lt {m : Memory} {a : Nat} (h : ∀ c ∈ m, a < c.1) : m.get a = unlisted a := by
  induction m with
  | nil => rfl
  | cons c rest ih =>
    have hc : a < c.1 := h c List.mem_cons_self
    rw [Memory.get, if_neg (by omega), ih fun d hd => h d (List.mem_cons_of_mem _ hd)]

/-- Two memories in canonical form that read alike everywhere are the same data. -/
theorem Memory.ext_of_wf {m n : Memory} (hm : m.wf) (hn : n.wf) (h : ∀ a, m.get a = n.get a) : m = n := by
  induction m generalizing n with
  | nil =>
    cases n with
    | nil => rfl
    | cons d n =>
      obtain ⟨d, e⟩ := d
      exact absurd (by simpa [Memory.get] using (h d).symm) (hn.2 (d, e) List.mem_cons_self).2
  | cons c m ih =>
    obtain ⟨c, b⟩ := c
    obtain ⟨hmh, hmt⟩ := List.pairwise_cons.1 hm.1
    have hmw : Memory.wf m := ⟨hmt, fun x hx => hm.2 x (List.mem_cons_of_mem _ hx)⟩
    have hb := (hm.2 (c, b) List.mem_cons_self).2
    cases n with
    | nil => exact absurd (by simpa [Memory.get] using h c) hb
    | cons d n =>
      obtain ⟨d, e⟩ := d
      obtain ⟨hnh, hnt⟩ := List.pairwise_cons.1 hn.1
      have hnw : Memory.wf n := ⟨hnt, fun x hx => hn.2 x (List.mem_cons_of_mem _ hx)⟩
      have he := (hn.2 (d, e) List.mem_cons_self).2
      have hmc : Memory.get m c = unlisted c := Memory.get_of_lt hmh
      have hnd : Memory.get n d = unlisted d := Memory.get_of_lt hnh
      rcases Nat.lt_trichotomy c d with hlt | heq | hgt
      · have := h c
        rw [Memory.get, if_pos rfl, Memory.get, if_neg (by omega),
          Memory.get_of_lt fun x hx => Nat.lt_trans hlt (hnh x hx)] at this
        exact absurd this hb
      · subst heq
        have hbe : b = e := by simpa [Memory.get] using h c
        subst hbe
        congr 1
        refine ih hmw hnw fun a => ?_
        by_cases hac : c = a
        · subst hac; rw [hmc, hnd]
        · simpa [Memory.get, hac] using h a
      · have := h d
        rw [Memory.get, if_neg (by omega), Memory.get_of_lt fun x hx => Nat.lt_trans hgt (hmh x hx),
          Memory.get, if_pos rfl] at this
        exact absurd this.symm he

/-! ### The range check and MemRead -/

theorem inRange_iff (a n : Nat) : inRange a n = true ↔ n = 0 ∨ a + n ≤ memSize := by
  simp [inRange]

theorem inRange_eq_false_iff (a n : Nat) : inRange a n = false ↔ n ≠ 0 ∧ memSize < a + n := by
  simp [inRange]

theorem Memory.read_of_inRange {m : Memory} {a n : Nat} (h : n = 0 ∨ a + n ≤ memSize) :
    m.read a n = some ((List.range n).map fun k => m.get (a + k)) := by
  simp [Memory.read, (inRange_iff a n).2 h]

theorem Memory.read_eq_none {m : Memory} {a n : Nat} (hn : n ≠ 0) (h : memSize < a + n) : m.read a n = none := by
  simp [Memory.read, (inRange_eq_false_iff a n).2 ⟨hn, h⟩]

/-- All that MemRead can do: answer the bytes, in a range that exists, or raise MemRange. -/
theorem Memory.read_cases (m : Memory) (a n : Nat) :
    ((n = 0 ∨ a + n ≤ memSize) ∧ m.read a n = some ((List.range n).map fun k => m.get (a + k))) ∨
    ((n ≠ 0 ∧ memSize < a + n) ∧ m.read a n = none) := by
  by_cases h : n = 0 ∨ a + n ≤ memSize
  · exact .inl ⟨h, Memory.read_of_inRange h⟩
  · have h' : n ≠ 0 ∧ memSize < a + n := by simpa [not_or] using h
    exact .inr ⟨h', Memory.read_eq_none h'.1 h'.2⟩

end Sys2Proof.Machine
end

