-- ==== Sys2Proof/Laws/State.lean ====
section
/-! SUPPORT. What each named update of the state does to each field: one lemma a field and update, true by definition,
so that no proof unfolds a record update. -/

namespace Sys2Proof.Machine

/-! ### setV -/

@[simp] theorem State.setV_v (s : State) (r : Nibble) (b : Byte) : (s.setV r b).v = s.v.set r.toNat b (nibble_lt r) := rfl
@[simp] theorem State.setV_i (s : State) (r : Nibble) (b : Byte) : (s.setV r b).i = s.i := rfl
@[simp] theorem State.setV_pc (s : State) (r : Nibble) (b : Byte) : (s.setV r b).pc = s.pc := rfl
@[simp] theorem State.setV_sp (s : State) (r : Nibble) (b : Byte) : (s.setV r b).sp = s.sp := rfl
@[simp] theorem State.setV_stack (s : State) (r : Nibble) (b : Byte) : (s.setV r b).stack = s.stack := rfl
@[simp] theorem State.setV_dt (s : State) (r : Nibble) (b : Byte) : (s.setV r b).dt = s.dt := rfl
@[simp] theorem State.setV_st (s : State) (r : Nibble) (b : Byte) : (s.setV r b).st = s.st := rfl
@[simp] theorem State.setV_mem (s : State) (r : Nibble) (b : Byte) : (s.setV r b).mem = s.mem := rfl
@[simp] theorem State.setV_fb (s : State) (r : Nibble) (b : Byte) : (s.setV r b).fb = s.fb := rfl
@[simp] theorem State.setV_key (s : State) (r : Nibble) (b : Byte) : (s.setV r b).key = s.key := rfl
@[simp] theorem State.setV_sched (s : State) (r : Nibble) (b : Byte) : (s.setV r b).sched = s.sched := rfl
@[simp] theorem State.setV_rate (s : State) (r : Nibble) (b : Byte) : (s.setV r b).rate = s.rate := rfl
@[simp] theorem State.setV_bp (s : State) (r : Nibble) (b : Byte) : (s.setV r b).bp = s.bp := rfl
@[simp] theorem State.setV_lastBp (s : State) (r : Nibble) (b : Byte) : (s.setV r b).lastBp = s.lastBp := rfl
@[simp] theorem State.setV_romMax (s : State) (r : Nibble) (b : Byte) : (s.setV r b).romMax = s.romMax := rfl
@[simp] theorem State.setV_inputs (s : State) (r : Nibble) (b : Byte) : (s.setV r b).inputs = s.inputs := rfl
@[simp] theorem State.setV_rndCount (s : State) (r : Nibble) (b : Byte) : (s.setV r b).rndCount = s.rndCount := rfl
@[simp] theorem State.setV_faults (s : State) (r : Nibble) (b : Byte) : (s.setV r b).faults = s.faults := rfl
@[simp] theorem State.setV_out (s : State) (r : Nibble) (b : Byte) : (s.setV r b).out = s.out := rfl
@[simp] theorem State.setV_trace (s : State) (r : Nibble) (b : Byte) : (s.setV r b).trace = s.trace ++ [.v r.toNat] := rfl
@[simp] theorem State.setV_results (s : State) (r : Nibble) (b : Byte) : (s.setV r b).results = s.results := rfl

/-! ### setI -/

@[simp] theorem State.setI_v (s : State) (w : Word) : (s.setI w).v = s.v := rfl
@[simp] theorem State.setI_i (s : State) (w : Word) : (s.setI w).i = w := rfl
@[simp] theorem State.setI_pc (s : State) (w : Word) : (s.setI w).pc = s.pc := rfl
@[simp] theorem State.setI_sp (s : State) (w : Word) : (s.setI w).sp = s.sp := rfl
@[simp] theorem State.setI_stack (s : State) (w : Word) : (s.setI w).stack = s.stack := rfl
@[simp] theorem State.setI_dt (s : State) (w : Word) : (s.setI w).dt = s.dt := rfl
@[simp] theorem State.setI_st (s : State) (w : Word) : (s.setI w).st = s.st := rfl
@[simp] theorem State.setI_mem (s : State) (w : Word) : (s.setI w).mem = s.mem := rfl
@[simp] theorem State.setI_fb (s : State) (w : Word) : (s.setI w).fb = s.fb := rfl
@[simp] theorem State.setI_key (s : State) (w : Word) : (s.setI w).key = s.key := rfl
@[simp] theorem State.setI_sched (s : State) (w : Word) : (s.setI w).sched = s.sched := rfl
@[simp] theorem State.setI_rate (s : State) (w : Word) : (s.setI w).rate = s.rate := rfl
@[simp] theorem State.setI_bp (s : State) (w : Word) : (s.setI w).bp = s.bp := rfl
@[simp] theorem State.setI_lastBp (s : State) (w : Word) : (s.setI w).lastBp = s.lastBp := rfl
@[simp] theorem State.setI_romMax (s : State) (w : Word) : (s.setI w).romMax = s.romMax := rfl
@[simp] theorem State.setI_inputs (s : State) (w : Word) : (s.setI w).inputs = s.inputs := rfl
@[simp] theorem State.setI_rndCount (s : State) (w : Word) : (s.setI w).rndCount = s.rndCount := rfl
@[simp] theorem State.setI_faults (s : State) (w : Word) : (s.setI w).faults = s.faults := rfl
@[simp] theorem State.setI_out (s : State) (w : Word) : (s.setI w).out = s.out := rfl
@[simp] theorem State.setI_trace (s : State) (w : Word) : (s.setI w).trace = s.trace ++ [.i] := rfl
@[simp] theorem State.setI_results (s : State) (w : Word) : (s.setI w).results = s.results := rfl

/-! ### setPc -/

@[simp] theorem State.setPc_v (s : State) (w : Word) : (s.setPc w).v = s.v := rfl
@[simp] theorem State.setPc_i (s : State) (w : Word) : (s.setPc w).i = s.i := rfl
@[simp] theorem State.setPc_pc (s : State) (w : Word) : (s.setPc w).pc = w := rfl
@[simp] theorem State.setPc_sp (s : State) (w : Word) : (s.setPc w).sp = s.sp := rfl
@[simp] theorem State.setPc_stack (s : State) (w : Word) : (s.setPc w).stack = s.stack := rfl
@[simp] theorem State.setPc_dt (s : State) (w : Word) : (s.setPc w).dt = s.dt := rfl
@[simp] theorem State.setPc_st (s : State) (w : Word) : (s.setPc w).st = s.st := rfl
@[simp] theorem State.setPc_mem (s : State) (w : Word) : (s.setPc w).mem = s.mem := rfl
@[simp] theorem State.setPc_fb (s : State) (w : Word) : (s.setPc w).fb = s.fb := rfl
@[simp] theorem State.setPc_key (s : State) (w : Word) : (s.setPc w).key = s.key := rfl
@[simp] theorem State.setPc_sched (s : State) (w : Word) : (s.setPc w).sched = s.sched := rfl
@[simp] theorem State.setPc_rate (s : State) (w : Word) : (s.setPc w).rate = s.rate := rfl
@[simp] theorem State.setPc_bp (s : State) (w : Word) : (s.setPc w).bp = s.bp := rfl
@[simp] theorem State.setPc_lastBp (s : State) (w : Word) : (s.setPc w).lastBp = s.lastBp := rfl
@[simp] theorem State.setPc_romMax (s : State) (w : Word) : (s.setPc w).romMax = s.romMax := rfl
@[simp] theorem State.setPc_inputs (s : State) (w : Word) : (s.setPc w).inputs = s.inputs := rfl
@[simp] theorem State.setPc_rndCount (s : State) (w : Word) : (s.setPc w).rndCount = s.rndCount := rfl
@[simp] theorem State.setPc_faults (s : State) (w : Word) : (s.setPc w).faults = s.faults := rfl
@[simp] theorem State.setPc_out (s : State) (w : Word) : (s.setPc w).out = s.out := rfl
@[simp] theorem State.setPc_trace (s : State) (w : Word) : (s.setPc w).trace = s.trace ++ [.pc] := rfl
@[simp] theorem State.setPc_results (s : State) (w : Word) : (s.setPc w).results = s.results := rfl

/-! ### setSp -/

@[simp] theorem State.setSp_v (s : State) (b : Byte) : (s.setSp b).v = s.v := rfl
@[simp] theorem State.setSp_i (s : State) (b : Byte) : (s.setSp b).i = s.i := rfl
@[simp] theorem State.setSp_pc (s : State) (b : Byte) : (s.setSp b).pc = s.pc := rfl
@[simp] theorem State.setSp_sp (s : State) (b : Byte) : (s.setSp b).sp = b := rfl
@[simp] theorem State.setSp_stack (s : State) (b : Byte) : (s.setSp b).stack = s.stack := rfl
@[simp] theorem State.setSp_dt (s : State) (b : Byte) : (s.setSp b).dt = s.dt := rfl
@[simp] theorem State.setSp_st (s : State) (b : Byte) : (s.setSp b).st = s.st := rfl
@[simp] theorem State.setSp_mem (s : State) (b : Byte) : (s.setSp b).mem = s.mem := rfl
@[simp] theorem State.setSp_fb (s : State) (b : Byte) : (s.setSp b).fb = s.fb := rfl
@[simp] theorem State.setSp_key (s : State) (b : Byte) : (s.setSp b).key = s.key := rfl
@[simp] theorem State.setSp_sched (s : State) (b : Byte) : (s.setSp b).sched = s.sched := rfl
@[simp] theorem State.setSp_rate (s : State) (b : Byte) : (s.setSp b).rate = s.rate := rfl
@[simp] theorem State.setSp_bp (s : State) (b : Byte) : (s.setSp b).bp = s.bp := rfl
@[simp] theorem State.setSp_lastBp (s : State) (b : Byte) : (s.setSp b).lastBp = s.lastBp := rfl
@[simp] theorem State.setSp_romMax (s : State) (b : Byte) : (s.setSp b).romMax = s.romMax := rfl
@[simp] theorem State.setSp_inputs (s : State) (b : Byte) : (s.setSp b).inputs = s.inputs := rfl
@[simp] theorem State.setSp_rndCount (s : State) (b : Byte) : (s.setSp b).rndCount = s.rndCount := rfl
@[simp] theorem State.setSp_faults (s : State) (b : Byte) : (s.setSp b).faults = s.faults := rfl
@[simp] theorem State.setSp_out (s : State) (b : Byte) : (s.setSp b).out = s.out := rfl
@[simp] theorem State.setSp_trace (s : State) (b : Byte) : (s.setSp b).trace = s.trace ++ [.sp] := rfl
@[simp] theorem State.setSp_results (s : State) (b : Byte) : (s.setSp b).results = s.results := rfl

/-! ### setStack -/

@[simp] theorem State.setStack_v (s : State) (k : Fin 16) (w : Word) : (s.setStack k w).v = s.v := rfl
@[simp] theorem State.setStack_i (s : State) (k : Fin 16) (w : Word) : (s.setStack k w).i = s.i := rfl
@[simp] theorem State.setStack_pc (s : State) (k : Fin 16) (w : Word) : (s.setStack k w).pc = s.pc := rfl
@[simp] theorem State.setStack_sp (s : State) (k : Fin 16) (w : Word) : (s.setStack k w).sp = s.sp := rfl
@[simp] theorem State.setStack_stack (s : State) (k : Fin 16) (w : Word) : (s.setStack k w).stack = s.stack.set k.val w k.isLt := rfl
@[simp] theorem State.setStack_dt (s : State) (k : Fin 16) (w : Word) : (s.setStack k w).dt = s.dt := rfl
@[simp] theorem State.setStack_st (s : State) (k : Fin 16) (w : Word) : (s.setStack k w).st = s.st := rfl
@[simp] theorem State.setStack_mem (s : State) (k : Fin 16) (w : Word) : (s.setStack k w).mem = s.mem := rfl
@[simp] theorem State.setStack_fb (s : State) (k : Fin 16) (w : Word) : (s.setStack k w).fb = s.fb := rfl
@[simp] theorem State.setStack_key (s : State) (k : Fin 16) (w : Word) : (s.setStack k w).key = s.key := rfl
@[simp] theorem State.setStack_sched (s : State) (k : Fin 16) (w : Word) : (s.setStack k w).sched = s.sched := rfl
@[simp] theorem State.setStack_rate (s : State) (k : Fin 16) (w : Word) : (s.setStack k w).rate = s.rate := rfl
@[simp] theorem State.setStack_bp (s : State) (k : Fin 16) (w : Word) : (s.setStack k w).bp = s.bp := rfl
@[simp] theorem State.setStack_lastBp (s : State) (k : Fin 16) (w : Word) : (s.setStack k w).lastBp = s.lastBp := rfl
@[simp] theorem State.setStack_romMax (s : State) (k : Fin 16) (w : Word) : (s.setStack k w).romMax = s.romMax := rfl
@[simp] theorem State.setStack_inputs (s : State) (k : Fin 16) (w : Word) : (s.setStack k w).inputs = s.inputs := rfl
@[simp] theorem State.setStack_rndCount (s : State) (k : Fin 16) (w : Word) : (s.setStack k w).rndCount = s.rndCount := rfl
@[simp] theorem State.setStack_faults (s : State) (k : Fin 16) (w : Word) : (s.setStack k w).faults = s.faults := rfl
@[simp] theorem State.setStack_out (s : State) (k : Fin 16) (w : Word) : (s.setStack k w).out = s.out := rfl
@[simp] theorem State.setStack_trace (s : State) (k : Fin 16) (w : Word) : (s.setStack k w).trace = s.trace ++ [.stack k.val] := rfl
@[simp] theorem State.setStack_results (s : State) (k : Fin 16) (w : Word) : (s.setStack k w).results = s.results := rfl

/-! ### setDt -/

@[simp] theorem State.setDt_v (s : State) (b : Byte) : (s.setDt b).v = s.v := rfl
@[simp] theorem State.setDt_i (s : State) (b : Byte) : (s.setDt b).i = s.i := rfl
@[simp] theorem State.setDt_pc (s : State) (b : Byte) : (s.setDt b).pc = s.pc := rfl
@[simp] theorem State.setDt_sp (s : State) (b : Byte) : (s.setDt b).sp = s.sp := rfl
@[simp] theorem State.setDt_stack (s : State) (b : Byte) : (s.setDt b).stack = s.stack := rfl
@[simp] theorem State.setDt_dt (s : State) (b : Byte) : (s.setDt b).dt = b := rfl
@[simp] theorem State.setDt_st (s : State) (b : Byte) : (s.setDt b).st = s.st := rfl
@[simp] theorem State.setDt_mem (s : State) (b : Byte) : (s.setDt b).mem = s.mem := rfl
@[simp] theorem State.setDt_fb (s : State) (b : Byte) : (s.setDt b).fb = s.fb := rfl
@[simp] theorem State.setDt_key (s : State) (b : Byte) : (s.setDt b).key = s.key := rfl
@[simp] theorem State.setDt_sched (s : State) (b : Byte) : (s.setDt b).sched = s.sched := rfl
@[simp] theorem State.setDt_rate (s : State) (b : Byte) : (s.setDt b).rate = s.rate := rfl
@[simp] theorem State.setDt_bp (s : State) (b : Byte) : (s.setDt b).bp = s.bp := rfl
@[simp] theorem State.setDt_lastBp (s : State) (b : Byte) : (s.setDt b).lastBp = s.lastBp := rfl
@[simp] theorem State.setDt_romMax (s : State) (b : Byte) : (s.setDt b).romMax = s.romMax := rfl
@[simp] theorem State.setDt_inputs (s : State) (b : Byte) : (s.setDt b).inputs = s.inputs := rfl
@[simp] theorem State.setDt_rndCount (s : State) (b : Byte) : (s.setDt b).rndCount = s.rndCount := rfl
@[simp] theorem State.setDt_faults (s : State) (b : Byte) : (s.setDt b).faults = s.faults := rfl
@[simp] theorem State.setDt_out (s : State) (b : Byte) : (s.setDt b).out = s.out := rfl
@[simp] theorem State.setDt_trace (s : State) (b : Byte) : (s.setDt b).trace = s.trace ++ [.dt] := rfl
@[simp] theorem State.setDt_results (s : State) (b : Byte) : (s.setDt b).results = s.results := rfl

/-! ### setSt -/

@[simp] theorem State.setSt_v (s : State) (b : Byte) : (s.setSt b).v = s.v := rfl
@[simp] theorem State.setSt_i (s : State) (b : Byte) : (s.setSt b).i = s.i := rfl
@[simp] theorem State.setSt_pc (s : State) (b : Byte) : (s.setSt b).pc = s.pc := rfl
@[simp] theorem State.setSt_sp (s : State) (b : Byte) : (s.setSt b).sp = s.sp := rfl
@[simp] theorem State.setSt_stack (s : State) (b : Byte) : (s.setSt b).stack = s.stack := rfl
@[simp] theorem State.setSt_dt (s : State) (b : Byte) : (s.setSt b).dt = s.dt := rfl
@[simp] theorem State.setSt_st (s : State) (b : Byte) : (s.setSt b).st = b := rfl
@[simp] theorem State.setSt_mem (s : State) (b : Byte) : (s.setSt b).mem = s.mem := rfl
@[simp] theorem State.setSt_fb (s : State) (b : Byte) : (s.setSt b).fb = s.fb := rfl
@[simp] theorem State.setSt_key (s : State) (b : Byte) : (s.setSt b).key = s.key := rfl
@[simp] theorem State.setSt_sched (s : State) (b : Byte) : (s.setSt b).sched = s.sched := rfl
@[simp] theorem State.setSt_rate (s : State) (b : Byte) : (s.setSt b).rate = s.rate := rfl
@[simp] theorem State.setSt_bp (s : State) (b : Byte) : (s.setSt b).bp = s.bp := rfl
@[simp] theorem State.setSt_lastBp (s : State) (b : Byte) : (s.setSt b).lastBp = s.lastBp := rfl
@[simp] theorem State.setSt_romMax (s : State) (b : Byte) : (s.setSt b).romMax = s.romMax := rfl
@[simp] theorem State.setSt_inputs (s : State) (b : Byte) : (s.setSt b).inputs = s.inputs := rfl
@[simp] theorem State.setSt_rndCount (s : State) (b : Byte) : (s.setSt b).rndCount = s.rndCount := rfl
@[simp] theorem State.setSt_faults (s : State) (b : Byte) : (s.setSt b).faults = s.faults := rfl
@[simp] theorem State.setSt_out (s : State) (b : Byte) : (s.setSt b).out = s.out := rfl
@[simp] theorem State.setSt_trace (s : State) (b : Byte) : (s.setSt b).trace = s.trace ++ [.st] := rfl
@[simp] theorem State.setSt_results (s : State) (b : Byte) : (s.setSt b).results = s.results := rfl

/-! ### storeBytes -/

@[simp] theorem State.storeBytes_v (s : State) (a : Nat) (bs : List Byte) : (s.storeBytes a bs).v = s.v := rfl
@[simp] theorem State.storeBytes_i (s : State) (a : Nat) (bs : List Byte) : (s.storeBytes a bs).i = s.i := rfl
@[simp] theorem State.storeBytes_pc (s : State) (a : Nat) (bs : List Byte) : (s.storeBytes a bs).pc = s.pc := rfl
@[simp] theorem State.storeBytes_sp (s : State) (a : Nat) (bs : List Byte) : (s.storeBytes a bs).sp = s.sp := rfl
@[simp] theorem State.storeBytes_stack (s : State) (a : Nat) (bs : List Byte) : (s.storeBytes a bs).stack = s.stack := rfl
@[simp] theorem State.storeBytes_dt (s : State) (a : Nat) (bs : List Byte) : (s.storeBytes a bs).dt = s.dt := rfl
@[simp] theorem State.storeBytes_st (s : State) (a : Nat) (bs : List Byte) : (s.storeBytes a bs).st = s.st := rfl
@[simp] theorem State.storeBytes_mem (s : State) (a : Nat) (bs : List Byte) : (s.storeBytes a bs).mem = s.mem.putAll a bs := rfl
@[simp] theorem State.storeBytes_fb (s : State) (a : Nat) (bs : List Byte) : (s.storeBytes a bs).fb = s.fb := rfl
@[simp] theorem State.storeBytes_key (s : State) (a : Nat) (bs : List Byte) : (s.storeBytes a bs).key = s.key := rfl
@[simp] theorem State.storeBytes_sched (s : State) (a : Nat) (bs : List Byte) : (s.storeBytes a bs).sched = s.sched := rfl
@[simp] theorem State.storeBytes_rate (s : State) (a : Nat) (bs : List Byte) : (s.storeBytes a bs).rate = s.rate := rfl
@[simp] theorem State.storeBytes_bp (s : State) (a : Nat) (bs : List Byte) : (s.storeBytes a bs).bp = s.bp := rfl
@[simp] theorem State.storeBytes_lastBp (s : State) (a : Nat) (bs : List Byte) : (s.storeBytes a bs).lastBp = s.lastBp := rfl
@[simp] theorem State.storeBytes_romMax (s : State) (a : Nat) (bs : List Byte) : (s.storeBytes a bs).romMax = s.romMax := rfl
@[simp] theorem State.storeBytes_inputs (s : State) (a : Nat) (bs : List Byte) : (s.storeBytes a bs).inputs = s.inputs := rfl
@[simp] theorem State.storeBytes_rndCount (s : State) (a : Nat) (bs : List Byte) : (s.storeBytes a bs).rndCount = s.rndCount := rfl
@[simp] theorem State.storeBytes_faults (s : State) (a : Nat) (bs : List Byte) : (s.storeBytes a bs).faults = s.faults := rfl
@[simp] theorem State.storeBytes_out (s : State) (a : Nat) (bs : List Byte) : (s.storeBytes a bs).out = s.out := rfl
@[simp] theorem State.storeBytes_trace (s : State) (a : Nat) (bs : List Byte) : (s.storeBytes a bs).trace = s.trace ++ (List.range bs.length).map (fun k => .mem (a + k)) := rfl
@[simp] theorem State.storeBytes_results (s : State) (a : Nat) (bs : List Byte) : (s.storeBytes a bs).results = s.results := rfl

/-! ### toggle -/

@[simp] theorem State.toggle_v (s : State) (x : Fin 64) (y : Fin 32) : (s.toggle x y).v = s.v := rfl
@[simp] theorem State.toggle_i (s : State) (x : Fin 64) (y : Fin 32) : (s.toggle x y).i = s.i := rfl
@[simp] theorem State.toggle_pc (s : State) (x : Fin 64) (y : Fin 32) : (s.toggle x y).pc = s.pc := rfl
@[simp] theorem State.toggle_sp (s : State) (x : Fin 64) (y : Fin 32) : (s.toggle x y).sp = s.sp := rfl
@[simp] theorem State.toggle_stack (s : State) (x : Fin 64) (y : Fin 32) : (s.toggle x y).stack = s.stack := rfl
@[simp] theorem State.toggle_dt (s : State) (x : Fin 64) (y : Fin 32) : (s.toggle x y).dt = s.dt := rfl
@[simp] theorem State.toggle_st (s : State) (x : Fin 64) (y : Fin 32) : (s.toggle x y).st = s.st := rfl
@[simp] theorem State.toggle_mem (s : State) (x : Fin 64) (y : Fin 32) : (s.toggle x y).mem = s.mem := rfl
@[simp] theorem State.toggle_fb (s : State) (x : Fin 64) (y : Fin 32) : (s.toggle x y).fb = s.fb.set y.val ((s.fb[y.val]'y.isLt).set x.val (!s.cell x y) x.isLt) y.isLt := rfl
@[simp] theorem State.toggle_key (s : State) (x : Fin 64) (y : Fin 32) : (s.toggle x y).key = s.key := rfl
@[simp] theorem State.toggle_sched (s : State) (x : Fin 64) (y : Fin 32) : (s.toggle x y).sched = s.sched := rfl
@[simp] theorem State.toggle_rate (s : State) (x : Fin 64) (y : Fin 32) : (s.toggle x y).rate = s.rate := rfl
@[simp] theorem State.toggle_bp (s : State) (x : Fin 64) (y : Fin 32) : (s.toggle x y).bp = s.bp := rfl
@[simp] theorem State.toggle_lastBp (s : State) (x : Fin 64) (y : Fin 32) : (s.toggle x y).lastBp = s.lastBp := rfl
@[simp] theorem State.toggle_romMax (s : State) (x : Fin 64) (y : Fin 32) : (s.toggle x y).romMax = s.romMax := rfl
@[simp] theorem State.toggle_inputs (s : State) (x : Fin 64) (y : Fin 32) : (s.toggle x y).inputs = s.inputs := rfl
@[simp] theorem State.toggle_rndCount (s : State) (x : Fin 64) (y : Fin 32) : (s.toggle x y).rndCount = s.rndCount := rfl
@[simp] theorem State.toggle_faults (s : State) (x : Fin 64) (y : Fin 32) : (s.toggle x y).faults = s.faults := rfl
@[simp] theorem State.toggle_out (s : State) (x : Fin 64) (y : Fin 32) : (s.toggle x y).out = s.out := rfl
@[simp] theorem State.toggle_trace (s : State) (x : Fin 64) (y : Fin 32) : (s.toggle x y).trace = s.trace := rfl
@[simp] theorem State.toggle_results (s : State) (x : Fin 64) (y : Fin 32) : (s.toggle x y).results = s.results := rfl

/-! ### clearFb -/

@[simp] theorem State.clearFb_v (s : State) : (s.clearFb).v = s.v := rfl
@[simp] theorem State.clearFb_i (s : State) : (s.clearFb).i = s.i := rfl
@[simp] theorem State.clearFb_pc (s : State) : (s.clearFb).pc = s.pc := rfl
@[simp] theorem State.clearFb_sp (s : State) : (s.clearFb).sp = s.sp := rfl
@[simp] theorem State.clearFb_stack (s : State) : (s.clearFb).stack = s.stack := rfl
@[simp] theorem State.clearFb_dt (s : State) : (s.clearFb).dt = s.dt := rfl
@[simp] theorem State.clearFb_st (s : State) : (s.clearFb).st = s.st := rfl
@[simp] theorem State.clearFb_mem (s : State) : (s.clearFb).mem = s.mem := rfl
@[simp] theorem State.clearFb_fb (s : State) : (s.clearFb).fb = Vector.replicate 32 (Vector.replicate 64 false) := rfl
@[simp] theorem State.clearFb_key (s : State) : (s.clearFb).key = s.key := rfl
@[simp] theorem State.clearFb_sched (s : State) : (s.clearFb).sched = s.sched := rfl
@[simp] theorem State.clearFb_rate (s : State) : (s.clearFb).rate = s.rate := rfl
@[simp] theorem State.clearFb_bp (s : State) : (s.clearFb).bp = s.bp := rfl
@[simp] theorem State.clearFb_lastBp (s : State) : (s.clearFb).lastBp = s.lastBp := rfl
@[simp] theorem State.clearFb_romMax (s : State) : (s.clearFb).romMax = s.romMax := rfl
@[simp] theorem State.clearFb_inputs (s : State) : (s.clearFb).inputs = s.inputs := rfl
@[simp] theorem State.clearFb_rndCount (s : State) : (s.clearFb).rndCount = s.rndCount := rfl
@[simp] theorem State.clearFb_faults (s : State) : (s.clearFb).faults = s.faults := rfl
@[simp] theorem State.clearFb_out (s : State) : (s.clearFb).out = s.out := rfl
@[simp] theorem State.clearFb_trace (s : State) : (s.clearFb).trace = s.trace := rfl
@[simp] theorem State.clearFb_results (s : State) : (s.clearFb).results = s.results := rfl

/-! ### setKey -/

@[simp] theorem State.setKey_v (s : State) (k : Fin 16) (d : Bool) : (s.setKey k d).v = s.v := rfl
@[simp] theorem State.setKey_i (s : State) (k : Fin 16) (d : Bool) : (s.setKey k d).i = s.i := rfl
@[simp] theorem State.setKey_pc (s : State) (k : Fin 16) (d : Bool) : (s.setKey k d).pc = s.pc := rfl
@[simp] theorem State.setKey_sp (s : State) (k : Fin 16) (d : Bool) : (s.setKey k d).sp = s.sp := rfl
@[simp] theorem State.setKey_stack (s : State) (k : Fin 16) (d : Bool) : (s.setKey k d).stack = s.stack := rfl
@[simp] theorem State.setKey_dt (s : State) (k : Fin 16) (d : Bool) : (s.setKey k d).dt = s.dt := rfl
@[simp] theorem State.setKey_st (s : State) (k : Fin 16) (d : Bool) : (s.setKey k d).st = s.st := rfl
@[simp] theorem State.setKey_mem (s : State) (k : Fin 16) (d : Bool) : (s.setKey k d).mem = s.mem := rfl
@[simp] theorem State.setKey_fb (s : State) (k : Fin 16) (d : Bool) : (s.setKey k d).fb = s.fb := rfl
@[simp] theorem State.setKey_key (s : State) (k : Fin 16) (d : Bool) : (s.setKey k d).key = s.key.set k.val d k.isLt := rfl
@[simp] theorem State.setKey_sched (s : State) (k : Fin 16) (d : Bool) : (s.setKey k d).sched = s.sched := rfl
@[simp] theorem State.setKey_rate (s : State) (k : Fin 16) (d : Bool) : (s.setKey k d).rate = s.rate := rfl
@[simp] theorem State.setKey_bp (s : State) (k : Fin 16) (d : Bool) : (s.setKey k d).bp = s.bp := rfl
@[simp] theorem State.setKey_lastBp (s : State) (k : Fin 16) (d : Bool) : (s.setKey k d).lastBp = s.lastBp := rfl
@[simp] theorem State.setKey_romMax (s : State) (k : Fin 16) (d : Bool) : (s.setKey k d).romMax = s.romMax := rfl
@[simp] theorem State.setKey_inputs (s : State) (k : Fin 16) (d : Bool) : (s.setKey k d).inputs = s.inputs := rfl
@[simp] theorem State.setKey_rndCount (s : State) (k : Fin 16) (d : Bool) : (s.setKey k d).rndCount = s.rndCount := rfl
@[simp] theorem State.setKey_faults (s : State) (k : Fin 16) (d : Bool) : (s.setKey k d).faults = s.faults := rfl
@[simp] theorem State.setKey_out (s : State) (k : Fin 16) (d : Bool) : (s.setKey k d).out = s.out := rfl
@[simp] theorem State.setKey_trace (s : State) (k : Fin 16) (d : Bool) : (s.setKey k d).trace = s.trace := rfl
@[simp] theorem State.setKey_results (s : State) (k : Fin 16) (d : Bool) : (s.setKey k d).results = s.results := rfl

/-! ### emit -/

@[simp] theorem State.emit_v (s : State) (e : OutEvent) : (s.emit e).v = s.v := rfl
@[simp] theorem State.emit_i (s : State) (e : OutEvent) : (s.emit e).i = s.i := rfl
@[simp] theorem State.emit_pc (s : State) (e : OutEvent) : (s.emit e).pc = s.pc := rfl
@[simp] theorem State.emit_sp (s : State) (e : OutEvent) : (s.emit e).sp = s.sp := rfl
@[simp] theorem State.emit_stack (s : State) (e : OutEvent) : (s.emit e).stack = s.stack := rfl
@[simp] theorem State.emit_dt (s : State) (e : OutEvent) : (s.emit e).dt = s.dt := rfl
@[simp] theorem State.emit_st (s : State) (e : OutEvent) : (s.emit e).st = s.st := rfl
@[simp] theorem State.emit_mem (s : State) (e : OutEvent) : (s.emit e).mem = s.mem := rfl
@[simp] theorem State.emit_fb (s : State) (e : OutEvent) : (s.emit e).fb = s.fb := rfl
@[simp] theorem State.emit_key (s : State) (e : OutEvent) : (s.emit e).key = s.key := rfl
@[simp] theorem State.emit_sched (s : State) (e : OutEvent) : (s.emit e).sched = s.sched := rfl
@[simp] theorem State.emit_rate (s : State) (e : OutEvent) : (s.emit e).rate = s.rate := rfl
@[simp] theorem State.emit_bp (s : State) (e : OutEvent) : (s.emit e).bp = s.bp := rfl
@[simp] theorem State.emit_lastBp (s : State) (e : OutEvent) : (s.emit e).lastBp = s.lastBp := rfl
@[simp] theorem State.emit_romMax (s : State) (e : OutEvent) : (s.emit e).romMax = s.romMax := rfl
@[simp] theorem State.emit_inputs (s : State) (e : OutEvent) : (s.emit e).inputs = s.inputs := rfl
@[simp] theorem State.emit_rndCount (s : State) (e : OutEvent) : (s.emit e).rndCount = s.rndCount := rfl
@[simp] theorem State.emit_faults (s : State) (e : OutEvent) : (s.emit e).faults = s.faults := rfl
@[simp] theorem State.emit_out (s : State) (e : OutEvent) : (s.emit e).out = s.out ++ [e] := rfl
@[simp] theorem State.emit_trace (s : State) (e : OutEvent) : (s.emit e).trace = s.trace := rfl
@[simp] theorem State.emit_results (s : State) (e : OutEvent) : (s.emit e).results = s.results := rfl

/-! ### drawn -/

@[simp] theorem State.drawn_v (s : State) : (s.drawn).v = s.v := rfl
@[simp] theorem State.drawn_i (s : State) : (s.drawn).i = s.i := rfl
@[simp] theorem State.drawn_pc (s : State) : (s.drawn).pc = s.pc := rfl
@[simp] theorem State.drawn_sp (s : State) : (s.drawn).sp = s.sp := rfl
@[simp] theorem State.drawn_stack (s : State) : (s.drawn).stack = s.stack := rfl
@[simp] theorem State.drawn_dt (s : State) : (s.drawn).dt = s.dt := rfl
@[simp] theorem State.drawn_st (s : State) : (s.drawn).st = s.st := rfl
@[simp] theorem State.drawn_mem (s : State) : (s.drawn).mem = s.mem := rfl
@[simp] theorem State.drawn_fb (s : State) : (s.drawn).fb = s.fb := rfl
@[simp] theorem State.drawn_key (s : State) : (s.drawn).key = s.key := rfl
@[simp] theorem State.drawn_sched (s : State) : (s.drawn).sched = s.sched := rfl
@[simp] theorem State.drawn_rate (s : State) : (s.drawn).rate = s.rate := rfl
@[simp] theorem State.drawn_bp (s : State) : (s.drawn).bp = s.bp := rfl
@[simp] theorem State.drawn_lastBp (s : State) : (s.drawn).lastBp = s.lastBp := rfl
@[simp] theorem State.drawn_romMax (s : State) : (s.drawn).romMax = s.romMax := rfl
@[simp] theorem State.drawn_inputs (s : State) : (s.drawn).inputs = s.inputs := rfl
@[simp] theorem State.drawn_rndCount (s : State) : (s.drawn).rndCount = s.rndCount + 1 := rfl
@[simp] theorem State.drawn_faults (s : State) : (s.drawn).faults = s.faults := rfl
@[simp] theorem State.drawn_out (s : State) : (s.drawn).out = s.out := rfl
@[simp] theorem State.drawn_trace (s : State) : (s.drawn).trace = s.trace := rfl
@[simp] theorem State.drawn_results (s : State) : (s.drawn).results = s.results := rfl

/-! ### setSched -/

@[simp] theorem State.setSched_v (s : State) (x : Sched) : (s.setSched x).v = s.v := rfl
@[simp] theorem State.setSched_i (s : State) (x : Sched) : (s.setSched x).i = s.i := rfl
@[simp] theorem State.setSched_pc (s : State) (x : Sched) : (s.setSched x).pc = s.pc := rfl
@[simp] theorem State.setSched_sp (s : State) (x : Sched) : (s.setSched x).sp = s.sp := rfl
@[simp] theorem State.setSched_stack (s : State) (x : Sched) : (s.setSched x).stack = s.stack := rfl
@[simp] theorem State.setSched_dt (s : State) (x : Sched) : (s.setSched x).dt = s.dt := rfl
@[simp] theorem State.setSched_st (s : State) (x : Sched) : (s.setSched x).st = s.st := rfl
@[simp] theorem State.setSched_mem (s : State) (x : Sched) : (s.setSched x).mem = s.mem := rfl
@[simp] theorem State.setSched_fb (s : State) (x : Sched) : (s.setSched x).fb = s.fb := rfl
@[simp] theorem State.setSched_key (s : State) (x : Sched) : (s.setSched x).key = s.key := rfl
@[simp] theorem State.setSched_sched (s : State) (x : Sched) : (s.setSched x).sched = x := rfl
@[simp] theorem State.setSched_rate (s : State) (x : Sched) : (s.setSched x).rate = s.rate := rfl
@[simp] theorem State.setSched_bp (s : State) (x : Sched) : (s.setSched x).bp = s.bp := rfl
@[simp] theorem State.setSched_lastBp (s : State) (x : Sched) : (s.setSched x).lastBp = s.lastBp := rfl
@[simp] theorem State.setSched_romMax (s : State) (x : Sched) : (s.setSched x).romMax = s.romMax := rfl
@[simp] theorem State.setSched_inputs (s : State) (x : Sched) : (s.setSched x).inputs = s.inputs := rfl
@[simp] theorem State.setSched_rndCount (s : State) (x : Sched) : (s.setSched x).rndCount = s.rndCount := rfl
@[simp] theorem State.setSched_faults (s : State) (x : Sched) : (s.setSched x).faults = s.faults := rfl
@[simp] theorem State.setSched_out (s : State) (x : Sched) : (s.setSched x).out = s.out := rfl
@[simp] theorem State.setSched_trace (s : State) (x : Sched) : (s.setSched x).trace = s.trace := rfl
@[simp] theorem State.setSched_results (s : State) (x : Sched) : (s.setSched x).results = s.results := rfl

/-! ### setRate -/

@[simp] theorem State.setRate_v (s : State) (r : Rat) : (s.setRate r).v = s.v := rfl
@[simp] theorem State.setRate_i (s : State) (r : Rat) : (s.setRate r).i = s.i := rfl
@[simp] theorem State.setRate_pc (s : State) (r : Rat) : (s.setRate r).pc = s.pc := rfl
@[simp] theorem State.setRate_sp (s : State) (r : Rat) : (s.setRate r).sp = s.sp := rfl
@[simp] theorem State.setRate_stack (s : State) (r : Rat) : (s.setRate r).stack = s.stack := rfl
@[simp] theorem State.setRate_dt (s : State) (r : Rat) : (s.setRate r).dt = s.dt := rfl
@[simp] theorem State.setRate_st (s : State) (r : Rat) : (s.setRate r).st = s.st := rfl
@[simp] theorem State.setRate_mem (s : State) (r : Rat) : (s.setRate r).mem = s.mem := rfl
@[simp] theorem State.setRate_fb (s : State) (r : Rat) : (s.setRate r).fb = s.fb := rfl
@[simp] theorem State.setRate_key (s : State) (r : Rat) : (s.setRate r).key = s.key := rfl
@[simp] theorem State.setRate_sched (s : State) (r : Rat) : (s.setRate r).sched = s.sched := rfl
@[simp] theorem State.setRate_rate (s : State) (r : Rat) : (s.setRate r).rate = r := rfl
@[simp] theorem State.setRate_bp (s : State) (r : Rat) : (s.setRate r).bp = s.bp := rfl
@[simp] theorem State.setRate_lastBp (s : State) (r : Rat) : (s.setRate r).lastBp = s.lastBp := rfl
@[simp] theorem State.setRate_romMax (s : State) (r : Rat) : (s.setRate r).romMax = s.romMax := rfl
@[simp] theorem State.setRate_inputs (s : State) (r : Rat) : (s.setRate r).inputs = s.inputs := rfl
@[simp] theorem State.setRate_rndCount (s : State) (r : Rat) : (s.setRate r).rndCount = s.rndCount := rfl
@[simp] theorem State.setRate_faults (s : State) (r : Rat) : (s.setRate r).faults = s.faults := rfl
@[simp] theorem State.setRate_out (s : State) (r : Rat) : (s.setRate r).out = s.out := rfl
@[simp] theorem State.setRate_trace (s : State) (r : Rat) : (s.setRate r).trace = s.trace := rfl
@[simp] theorem State.setRate_results (s : State) (r : Rat) : (s.setRate r).results = s.results := rfl

/-! ### setBp -/

@[simp] theorem State.setBp_v (s : State) (l : List Nat) : (s.setBp l).v = s.v := rfl
@[simp] theorem State.setBp_i (s : State) (l : List Nat) : (s.setBp l).i = s.i := rfl
@[simp] theorem State.setBp_pc (s : State) (l : List Nat) : (s.setBp l).pc = s.pc := rfl
@[simp] theorem State.setBp_sp (s : State) (l : List Nat) : (s.setBp l).sp = s.sp := rfl
@[simp] theorem State.setBp_stack (s : State) (l : List Nat) : (s.setBp l).stack = s.stack := rfl
@[simp] theorem State.setBp_dt (s : State) (l : List Nat) : (s.setBp l).dt = s.dt := rfl
@[simp] theorem State.setBp_st (s : State) (l : List Nat) : (s.setBp l).st = s.st := rfl
@[simp] theorem State.setBp_mem (s : State) (l : List Nat) : (s.setBp l).mem = s.mem := rfl
@[simp] theorem State.setBp_fb (s : State) (l : List Nat) : (s.setBp l).fb = s.fb := rfl
@[simp] theorem State.setBp_key (s : State) (l : List Nat) : (s.setBp l).key = s.key := rfl
@[simp] theorem State.setBp_sched (s : State) (l : List Nat) : (s.setBp l).sched = s.sched := rfl
@[simp] theorem State.setBp_rate (s : State) (l : List Nat) : (s.setBp l).rate = s.rate := rfl
@[simp] theorem State.setBp_bp (s : State) (l : List Nat) : (s.setBp l).bp = l := rfl
@[simp] theorem State.setBp_lastBp (s : State) (l : List Nat) : (s.setBp l).lastBp = s.lastBp := rfl
@[simp] theorem State.setBp_romMax (s : State) (l : List Nat) : (s.setBp l).romMax = s.romMax := rfl
@[simp] theorem State.setBp_inputs (s : State) (l : List Nat) : (s.setBp l).inputs = s.inputs := rfl
@[simp] theorem State.setBp_rndCount (s : State) (l : List Nat) : (s.setBp l).rndCount = s.rndCount := rfl
@[simp] theorem State.setBp_faults (s : State) (l : List Nat) : (s.setBp l).faults = s.faults := rfl
@[simp] theorem State.setBp_out (s : State) (l : List Nat) : (s.setBp l).out = s.out := rfl
@[simp] theorem State.setBp_trace (s : State) (l : List Nat) : (s.setBp l).trace = s.trace := rfl
@[simp] theorem State.setBp_results (s : State) (l : List Nat) : (s.setBp l).results = s.results := rfl

/-! ### setLastBp -/

@[simp] theorem State.setLastBp_v (s : State) (a : Option Word) : (s.setLastBp a).v = s.v := rfl
@[simp] theorem State.setLastBp_i (s : State) (a : Option Word) : (s.setLastBp a).i = s.i := rfl
@[simp] theorem State.setLastBp_pc (s : State) (a : Option Word) : (s.setLastBp a).pc = s.pc := rfl
@[simp] theorem State.setLastBp_sp (s : State) (a : Option Word) : (s.setLastBp a).sp = s.sp := rfl
@[simp] theorem State.setLastBp_stack (s : State) (a : Option Word) : (s.setLastBp a).stack = s.stack := rfl
@[simp] theorem State.setLastBp_dt (s : State) (a : Option Word) : (s.setLastBp a).dt = s.dt := rfl
@[simp] theorem State.setLastBp_st (s : State) (a : Option Word) : (s.setLastBp a).st = s.st := rfl
@[simp] theorem State.setLastBp_mem (s : State) (a : Option Word) : (s.setLastBp a).mem = s.mem := rfl
@[simp] theorem State.setLastBp_fb (s : State) (a : Option Word) : (s.setLastBp a).fb = s.fb := rfl
@[simp] theorem State.setLastBp_key (s : State) (a : Option Word) : (s.setLastBp a).key = s.key := rfl
@[simp] theorem State.setLastBp_sched (s : State) (a : Option Word) : (s.setLastBp a).sched = s.sched := rfl
@[simp] theorem State.setLastBp_rate (s : State) (a : Option Word) : (s.setLastBp a).rate = s.rate := rfl
@[simp] theorem State.setLastBp_bp (s : State) (a : Option Word) : (s.setLastBp a).bp = s.bp := rfl
@[simp] theorem State.setLastBp_lastBp (s : State) (a : Option Word) : (s.setLastBp a).lastBp = a := rfl
@[simp] theorem State.setLastBp_romMax (s : State) (a : Option Word) : (s.setLastBp a).romMax = s.romMax := rfl
@[simp] theorem State.setLastBp_inputs (s : State) (a : Option Word) : (s.setLastBp a).inputs = s.inputs := rfl
@[simp] theorem State.setLastBp_rndCount (s : State) (a : Option Word) : (s.setLastBp a).rndCount = s.rndCount := rfl
@[simp] theorem State.setLastBp_faults (s : State) (a : Option Word) : (s.setLastBp a).faults = s.faults := rfl
@[simp] theorem State.setLastBp_out (s : State) (a : Option Word) : (s.setLastBp a).out = s.out := rfl
@[simp] theorem State.setLastBp_trace (s : State) (a : Option Word) : (s.setLastBp a).trace = s.trace := rfl
@[simp] theorem State.setLastBp_results (s : State) (a : Option Word) : (s.setLastBp a).results = s.results := rfl

/-! ### setRomMax -/

@[simp] theorem State.setRomMax_v (s : State) (a : Nat) : (s.setRomMax a).v = s.v := rfl
@[simp] theorem State.setRomMax_i (s : State) (a : Nat) : (s.setRomMax a).i = s.i := rfl
@[simp] theorem State.setRomMax_pc (s : State) (a : Nat) : (s.setRomMax a).pc = s.pc := rfl
@[simp] theorem State.setRomMax_sp (s : State) (a : Nat) : (s.setRomMax a).sp = s.sp := rfl
@[simp] theorem State.setRomMax_stack (s : State) (a : Nat) : (s.setRomMax a).stack = s.stack := rfl
@[simp] theorem State.setRomMax_dt (s : State) (a : Nat) : (s.setRomMax a).dt = s.dt := rfl
@[simp] theorem State.setRomMax_st (s : State) (a : Nat) : (s.setRomMax a).st = s.st := rfl
@[simp] theorem State.setRomMax_mem (s : State) (a : Nat) : (s.setRomMax a).mem = s.mem := rfl
@[simp] theorem State.setRomMax_fb (s : State) (a : Nat) : (s.setRomMax a).fb = s.fb := rfl
@[simp] theorem State.setRomMax_key (s : State) (a : Nat) : (s.setRomMax a).key = s.key := rfl
@[simp] theorem State.setRomMax_sched (s : State) (a : Nat) : (s.setRomMax a).sched = s.sched := rfl
@[simp] theorem State.setRomMax_rate (s : State) (a : Nat) : (s.setRomMax a).rate = s.rate := rfl
@[simp] theorem State.setRomMax_bp (s : State) (a : Nat) : (s.setRomMax a).bp = s.bp := rfl
@[simp] theorem State.setRomMax_lastBp (s : State) (a : Nat) : (s.setRomMax a).lastBp = s.lastBp := rfl
@[simp] theorem State.setRomMax_romMax (s : State) (a : Nat) : (s.setRomMax a).romMax = a := rfl
@[simp] theorem State.setRomMax_inputs (s : State) (a : Nat) : (s.setRomMax a).inputs = s.inputs := rfl
@[simp] theorem State.setRomMax_rndCount (s : State) (a : Nat) : (s.setRomMax a).rndCount = s.rndCount := rfl
@[simp] theorem State.setRomMax_faults (s : State) (a : Nat) : (s.setRomMax a).faults = s.faults := rfl
@[simp] theorem State.setRomMax_out (s : State) (a : Nat) : (s.setRomMax a).out = s.out := rfl
@[simp] theorem State.setRomMax_trace (s : State) (a : Nat) : (s.setRomMax a).trace = s.trace := rfl
@[simp] theorem State.setRomMax_results (s : State) (a : Nat) : (s.setRomMax a).results = s.results := rfl

/-! ### answer -/

@[simp] theorem State.answer_v (s : State) (r : HostResult) : (s.answer r).v = s.v := rfl
@[simp] theorem State.answer_i (s : State) (r : HostResult) : (s.answer r).i = s.i := rfl
@[simp] theorem State.answer_pc (s : State) (r : HostResult) : (s.answer r).pc = s.pc := rfl
@[simp] theorem State.answer_sp (s : State) (r : HostResult) : (s.answer r).sp = s.sp := rfl
@[simp] theorem State.answer_stack (s : State) (r : HostResult) : (s.answer r).stack = s.stack := rfl
@[simp] theorem State.answer_dt (s : State) (r : HostResult) : (s.answer r).dt = s.dt := rfl
@[simp] theorem State.answer_st (s : State) (r : HostResult) : (s.answer r).st = s.st := rfl
@[simp] theorem State.answer_mem (s : State) (r : HostResult) : (s.answer r).mem = s.mem := rfl
@[simp] theorem State.answer_fb (s : State) (r : HostResult) : (s.answer r).fb = s.fb := rfl
@[simp] theorem State.answer_key (s : State) (r : HostResult) : (s.answer r).key = s.key := rfl
@[simp] theorem State.answer_sched (s : State) (r : HostResult) : (s.answer r).sched = s.sched := rfl
@[simp] theorem State.answer_rate (s : State) (r : HostResult) : (s.answer r).rate = s.rate := rfl
@[simp] theorem State.answer_bp (s : State) (r : HostResult) : (s.answer r).bp = s.bp := rfl
@[simp] theorem State.answer_lastBp (s : State) (r : HostResult) : (s.answer r).lastBp = s.lastBp := rfl
@[simp] theorem State.answer_romMax (s : State) (r : HostResult) : (s.answer r).romMax = s.romMax := rfl
@[simp] theorem State.answer_inputs (s : State) (r : HostResult) : (s.answer r).inputs = s.inputs := rfl
@[simp] theorem State.answer_rndCount (s : State) (r : HostResult) : (s.answer r).rndCount = s.rndCount := rfl
@[simp] theorem State.answer_faults (s : State) (r : HostResult) : (s.answer r).faults = s.faults := rfl
@[simp] theorem State.answer_out (s : State) (r : HostResult) : (s.answer r).out = s.out := rfl
@[simp] theorem State.answer_trace (s : State) (r : HostResult) : (s.answer r).trace = s.trace := rfl
@[simp] theorem State.answer_results (s : State) (r : HostResult) : (s.answer r).results = s.results ++ [r] := rfl

/-! ### popInput -/

@[simp] theorem State.popInput_v (s : State) : (s.popInput).v = s.v := rfl
@[simp] theorem State.popInput_i (s : State) : (s.popInput).i = s.i := rfl
@[simp] theorem State.popInput_pc (s : State) : (s.popInput).pc = s.pc := rfl
@[simp] theorem State.popInput_sp (s : State) : (s.popInput).sp = s.sp := rfl
@[simp] theorem State.popInput_stack (s : State) : (s.popInput).stack = s.stack := rfl
@[simp] theorem State.popInput_dt (s : State) : (s.popInput).dt = s.dt := rfl
@[simp] theorem State.popInput_st (s : State) : (s.popInput).st = s.st := rfl
@[simp] theorem State.popInput_mem (s : State) : (s.popInput).mem = s.mem := rfl
@[simp] theorem State.popInput_fb (s : State) : (s.popInput).fb = s.fb := rfl
@[simp] theorem State.popInput_key (s : State) : (s.popInput).key = s.key := rfl
@[simp] theorem State.popInput_sched (s : State) : (s.popInput).sched = s.sched := rfl
@[simp] theorem State.popInput_rate (s : State) : (s.popInput).rate = s.rate := rfl
@[simp] theorem State.popInput_bp (s : State) : (s.popInput).bp = s.bp := rfl
@[simp] theorem State.popInput_lastBp (s : State) : (s.popInput).lastBp = s.lastBp := rfl
@[simp] theorem State.popInput_romMax (s : State) : (s.popInput).romMax = s.romMax := rfl
@[simp] theorem State.popInput_inputs (s : State) : (s.popInput).inputs = s.inputs.tail := rfl
@[simp] theorem State.popInput_rndCount (s : State) : (s.popInput).rndCount = s.rndCount := rfl
@[simp] theorem State.popInput_faults (s : State) : (s.popInput).faults = s.faults := rfl
@[simp] theorem State.popInput_out (s : State) : (s.popInput).out = s.out := rfl
@[simp] theorem State.popInput_trace (s : State) : (s.popInput).trace = s.trace := rfl
@[simp] theorem State.popInput_results (s : State) : (s.popInput).results = s.results := rfl

/-! ### halt -/

@[simp] theorem State.halt_v (s : State) (r : HaltReason) : (s.halt r).v = s.v := rfl
@[simp] theorem State.halt_i (s : State) (r : HaltReason) : (s.halt r).i = s.i := rfl
@[simp] theorem State.halt_pc (s : State) (r : HaltReason) : (s.halt r).pc = s.pc := rfl
@[simp] theorem State.halt_sp (s : State) (r : HaltReason) : (s.halt r).sp = s.sp := rfl
@[simp] theorem State.halt_stack (s : State) (r : HaltReason) : (s.halt r).stack = s.stack := rfl
@[simp] theorem State.halt_dt (s : State) (r : HaltReason) : (s.halt r).dt = s.dt := rfl
@[simp] theorem State.halt_st (s : State) (r : HaltReason) : (s.halt r).st = s.st := rfl
@[simp] theorem State.halt_mem (s : State) (r : HaltReason) : (s.halt r).mem = s.mem := rfl
@[simp] theorem State.halt_fb (s : State) (r : HaltReason) : (s.halt r).fb = s.fb := rfl
@[simp] theorem State.halt_key (s : State) (r : HaltReason) : (s.halt r).key = s.key := rfl
@[simp] theorem State.halt_sched (s : State) (r : HaltReason) : (s.halt r).sched = .halted r := rfl
@[simp] theorem State.halt_rate (s : State) (r : HaltReason) : (s.halt r).rate = s.rate := rfl
@[simp] theorem State.halt_bp (s : State) (r : HaltReason) : (s.halt r).bp = s.bp := rfl
@[simp] theorem State.halt_lastBp (s : State) (r : HaltReason) : (s.halt r).lastBp = s.lastBp := rfl
@[simp] theorem State.halt_romMax (s : State) (r : HaltReason) : (s.halt r).romMax = s.romMax := rfl
@[simp] theorem State.halt_inputs (s : State) (r : HaltReason) : (s.halt r).inputs = s.inputs := rfl
@[simp] theorem State.halt_rndCount (s : State) (r : HaltReason) : (s.halt r).rndCount = s.rndCount := rfl
@[simp] theorem State.halt_faults (s : State) (r : HaltReason) : (s.halt r).faults = s.faults ++ (if r.isFault then [r] else []) := rfl
@[simp] theorem State.halt_out (s : State) (r : HaltReason) : (s.halt r).out = s.out ++ [.halt r] := rfl
@[simp] theorem State.halt_trace (s : State) (r : HaltReason) : (s.halt r).trace = s.trace := rfl
@[simp] theorem State.halt_results (s : State) (r : HaltReason) : (s.halt r).results = s.results := rfl

/-! ### resume -/

@[simp] theorem State.resume_v (s : State) (r : Rat) : (s.resume r).v = s.v := rfl
@[simp] theorem State.resume_i (s : State) (r : Rat) : (s.resume r).i = s.i := rfl
@[simp] theorem State.resume_pc (s : State) (r : Rat) : (s.resume r).pc = s.pc := rfl
@[simp] theorem State.resume_sp (s : State) (r : Rat) : (s.resume r).sp = s.sp := rfl
@[simp] theorem State.resume_stack (s : State) (r : Rat) : (s.resume r).stack = s.stack := rfl
@[simp] theorem State.resume_dt (s : State) (r : Rat) : (s.resume r).dt = s.dt := rfl
@[simp] theorem State.resume_st (s : State) (r : Rat) : (s.resume r).st = s.st := rfl
@[simp] theorem State.resume_mem (s : State) (r : Rat) : (s.resume r).mem = s.mem := rfl
@[simp] theorem State.resume_fb (s : State) (r : Rat) : (s.resume r).fb = s.fb := rfl
@[simp] theorem State.resume_key (s : State) (r : Rat) : (s.resume r).key = s.key := rfl
@[simp] theorem State.resume_sched (s : State) (r : Rat) : (s.resume r).sched = .running := rfl
@[simp] theorem State.resume_rate (s : State) (r : Rat) : (s.resume r).rate = r := rfl
@[simp] theorem State.resume_bp (s : State) (r : Rat) : (s.resume r).bp = s.bp := rfl
@[simp] theorem State.resume_lastBp (s : State) (r : Rat) : (s.resume r).lastBp = s.lastBp := rfl
@[simp] theorem State.resume_romMax (s : State) (r : Rat) : (s.resume r).romMax = s.romMax := rfl
@[simp] theorem State.resume_inputs (s : State) (r : Rat) : (s.resume r).inputs = s.inputs := rfl
@[simp] theorem State.resume_rndCount (s : State) (r : Rat) : (s.resume r).rndCount = s.rndCount := rfl
@[simp] theorem State.resume_faults (s : State) (r : Rat) : (s.resume r).faults = s.faults := rfl
@[simp] theorem State.resume_out (s : State) (r : Rat) : (s.resume r).out = s.out := rfl
@[simp] theorem State.resume_trace (s : State) (r : Rat) : (s.resume r).trace = s.trace := rfl
@[simp] theorem State.resume_results (s : State) (r : Rat) : (s.resume r).results = s.results := rfl

/-! ### advance -/

@[simp] theorem State.advance_v (s : State) : (s.advance).v = s.v := rfl
@[simp] theorem State.advance_i (s : State) : (s.advance).i = s.i := rfl
@[simp] theorem State.advance_pc (s : State) : (s.advance).pc = s.pc + 2 := rfl
@[simp] theorem State.advance_sp (s : State) : (s.advance).sp = s.sp := rfl
@[simp] theorem State.advance_stack (s : State) : (s.advance).stack = s.stack := rfl
@[simp] theorem State.advance_dt (s : State) : (s.advance).dt = s.dt := rfl
@[simp] theorem State.advance_st (s : State) : (s.advance).st = s.st := rfl
@[simp] theorem State.advance_mem (s : State) : (s.advance).mem = s.mem := rfl
@[simp] theorem State.advance_fb (s : State) : (s.advance).fb = s.fb := rfl
@[simp] theorem State.advance_key (s : State) : (s.advance).key = s.key := rfl
@[simp] theorem State.advance_sched (s : State) : (s.advance).sched = s.sched := rfl
@[simp] theorem State.advance_rate (s : State) : (s.advance).rate = s.rate := rfl
@[simp] theorem State.advance_bp (s : State) : (s.advance).bp = s.bp := rfl
@[simp] theorem State.advance_lastBp (s : State) : (s.advance).lastBp = s.lastBp := rfl
@[simp] theorem State.advance_romMax (s : State) : (s.advance).romMax = s.romMax := rfl
@[simp] theorem State.advance_inputs (s : State) : (s.advance).inputs = s.inputs := rfl
@[simp] theorem State.advance_rndCount (s : State) : (s.advance).rndCount = s.rndCount := rfl
@[simp] theorem State.advance_faults (s : State) : (s.advance).faults = s.faults := rfl
@[simp] theorem State.advance_out (s : State) : (s.advance).out = s.out := rfl
@[simp] theorem State.advance_trace (s : State) : (s.advance).trace = s.trace ++ [.pc] := rfl
@[simp] theorem State.advance_results (s : State) : (s.advance).results = s.results := rfl

/-! ### skip -/

@[simp] theorem State.skip_v (s : State) : (s.skip).v = s.v := rfl
@[simp] theorem State.skip_i (s : State) : (s.skip).i = s.i := rfl
@[simp] theorem State.skip_pc (s : State) : (s.skip).pc = s.pc + 2 := rfl
@[simp] theorem State.skip_sp (s : State) : (s.skip).sp = s.sp := rfl
@[simp] theorem State.skip_stack (s : State) : (s.skip).stack = s.stack := rfl
@[simp] theorem State.skip_dt (s : State) : (s.skip).dt = s.dt := rfl
@[simp] theorem State.skip_st (s : State) : (s.skip).st = s.st := rfl
@[simp] theorem State.skip_mem (s : State) : (s.skip).mem = s.mem := rfl
@[simp] theorem State.skip_fb (s : State) : (s.skip).fb = s.fb := rfl
@[simp] theorem State.skip_key (s : State) : (s.skip).key = s.key := rfl
@[simp] theorem State.skip_sched (s : State) : (s.skip).sched = s.sched := rfl
@[simp] theorem State.skip_rate (s : State) : (s.skip).rate = s.rate := rfl
@[simp] theorem State.skip_bp (s : State) : (s.skip).bp = s.bp := rfl
@[simp] theorem State.skip_lastBp (s : State) : (s.skip).lastBp = s.lastBp := rfl
@[simp] theorem State.skip_romMax (s : State) : (s.skip).romMax = s.romMax := rfl
@[simp] theorem State.skip_inputs (s : State) : (s.skip).inputs = s.inputs := rfl
@[simp] theorem State.skip_rndCount (s : State) : (s.skip).rndCount = s.rndCount := rfl
@[simp] theorem State.skip_faults (s : State) : (s.skip).faults = s.faults := rfl
@[simp] theorem State.skip_out (s : State) : (s.skip).out = s.out := rfl
@[simp] theorem State.skip_trace (s : State) : (s.skip).trace = s.trace ++ [.pc] := rfl
@[simp] theorem State.skip_results (s : State) : (s.skip).results = s.results := rfl

/-! ### breakHere -/

@[simp] theorem State.breakHere_v (s : State) : (s.breakHere).v = s.v := rfl
@[simp] theorem State.breakHere_i (s : State) : (s.breakHere).i = s.i := rfl
@[simp] theorem State.breakHere_pc (s : State) : (s.breakHere).pc = s.pc := rfl
@[simp] theorem State.breakHere_sp (s : State) : (s.breakHere).sp = s.sp := rfl
@[simp] theorem State.breakHere_stack (s : State) : (s.breakHere).stack = s.stack := rfl
@[simp] theorem State.breakHere_dt (s : State) : (s.breakHere).dt = s.dt := rfl
@[simp] theorem State.breakHere_st (s : State) : (s.breakHere).st = s.st := rfl
@[simp] theorem State.breakHere_mem (s : State) : (s.breakHere).mem = s.mem := rfl
@[simp] theorem State.breakHere_fb (s : State) : (s.breakHere).fb = s.fb := rfl
@[simp] theorem State.breakHere_key (s : State) : (s.breakHere).key = s.key := rfl
@[simp] theorem State.breakHere_sched (s : State) : (s.breakHere).sched = .halted .breakpoint := rfl
@[simp] theorem State.breakHere_rate (s : State) : (s.breakHere).rate = s.rate := rfl
@[simp] theorem State.breakHere_bp (s : State) : (s.breakHere).bp = s.bp := rfl
@[simp] theorem State.breakHere_lastBp (s : State) : (s.breakHere).lastBp = some s.pc := rfl
@[simp] theorem State.breakHere_romMax (s : State) : (s.breakHere).romMax = s.romMax := rfl
@[simp] theorem State.breakHere_inputs (s : State) : (s.breakHere).inputs = s.inputs := rfl
@[simp] theorem State.breakHere_rndCount (s : State) : (s.breakHere).rndCount = s.rndCount := rfl
@[simp] theorem State.breakHere_faults (s : State) : (s.breakHere).faults = s.faults ++ [] := rfl
@[simp] theorem State.breakHere_out (s : State) : (s.breakHere).out = s.out ++ [.halt .breakpoint] := rfl
@[simp] theorem State.breakHere_trace (s : State) : (s.breakHere).trace = s.trace := rfl
@[simp] theorem State.breakHere_results (s : State) : (s.breakHere).results = s.results := rfl

/-! ### reinit -/

@[simp] theorem State.reinit_v (s : State) (n : Nat) : (s.reinit n).v = Vector.replicate 16 0 := rfl
@[simp] theorem State.reinit_i (s : State) (n : Nat) : (s.reinit n).i = 0 := rfl
@[simp] theorem State.reinit_pc (s : State) (n : Nat) : (s.reinit n).pc = 0x200 := rfl
@[simp] theorem State.reinit_sp (s : State) (n : Nat) : (s.reinit n).sp = 0 := rfl
@[simp] theorem State.reinit_stack (s : State) (n : Nat) : (s.reinit n).stack = Vector.replicate 16 0 := rfl
@[simp] theorem State.reinit_dt (s : State) (n : Nat) : (s.reinit n).dt = 0 := rfl
@[simp] theorem State.reinit_st (s : State) (n : Nat) : (s.reinit n).st = 0 := rfl
@[simp] theorem State.reinit_mem (s : State) (n : Nat) : (s.reinit n).mem = [] := rfl
@[simp] theorem State.reinit_fb (s : State) (n : Nat) : (s.reinit n).fb = Vector.replicate 32 (Vector.replicate 64 false) := rfl
@[simp] theorem State.reinit_key (s : State) (n : Nat) : (s.reinit n).key = Vector.replicate 16 false := rfl
@[simp] theorem State.reinit_sched (s : State) (n : Nat) : (s.reinit n).sched = s.sched := rfl
@[simp] theorem State.reinit_rate (s : State) (n : Nat) : (s.reinit n).rate = s.rate := rfl
@[simp] theorem State.reinit_bp (s : State) (n : Nat) : (s.reinit n).bp = s.bp := rfl
@[simp] theorem State.reinit_lastBp (s : State) (n : Nat) : (s.reinit n).lastBp = s.lastBp := rfl
@[simp] theorem State.reinit_romMax (s : State) (n : Nat) : (s.reinit n).romMax = romMaxOf n := rfl
@[simp] theorem State.reinit_inputs (s : State) (n : Nat) : (s.reinit n).inputs = s.inputs := rfl
@[simp] theorem State.reinit_rndCount (s : State) (n : Nat) : (s.reinit n).rndCount = s.rndCount := rfl
@[simp] theorem State.reinit_faults (s : State) (n : Nat) : (s.reinit n).faults = s.faults := rfl
@[simp] theorem State.reinit_out (s : State) (n : Nat) : (s.reinit n).out = s.out := rfl
@[simp] theorem State.reinit_trace (s : State) (n : Nat) : (s.reinit n).trace = s.trace ++ resetNotices := rfl
@[simp] theorem State.reinit_results (s : State) (n : Nat) : (s.reinit n).results = s.results := rfl

/-! ### clearMarker: only LASTBP -/

@[simp] theorem State.clearMarker_v (s : State) : s.clearMarker.v = s.v := by
  unfold State.clearMarker; split <;> rfl
@[simp] theorem State.clearMarker_i (s : State) : s.clearMarker.i = s.i := by
  unfold State.clearMarker; split <;> rfl
@[simp] theorem State.clearMarker_pc (s : State) : s.clearMarker.pc = s.pc := by
  unfold State.clearMarker; split <;> rfl
@[simp] theorem State.clearMarker_sp (s : State) : s.clearMarker.sp = s.sp := by
  unfold State.clearMarker; split <;> rfl
@[simp] theorem State.clearMarker_stack (s : State) : s.clearMarker.stack = s.stack := by
  unfold State.clearMarker; split <;> rfl
@[simp] theorem State.clearMarker_dt (s : State) : s.clearMarker.dt = s.dt := by
  unfold State.clearMarker; split <;> rfl
@[simp] theorem State.clearMarker_st (s : State) : s.clearMarker.st = s.st := by
  unfold State.clearMarker; split <;> rfl
@[simp] theorem State.clearMarker_mem (s : State) : s.clearMarker.mem = s.mem := by
  unfold State.clearMarker; split <;> rfl
@[simp] theorem State.clearMarker_fb (s : State) : s.clearMarker.fb = s.fb := by
  unfold State.clearMarker; split <;> rfl
@[simp] theorem State.clearMarker_key (s : State) : s.clearMarker.key = s.key := by
  unfold State.clearMarker; split <;> rfl
@[simp] theorem State.clearMarker_sched (s : State) : s.clearMarker.sched = s.sched := by
  unfold State.clearMarker; split <;> rfl
@[simp] theorem State.clearMarker_rate (s : State) : s.clearMarker.rate = s.rate := by
  unfold State.clearMarker; split <;> rfl
@[simp] theorem State.clearMarker_bp (s : State) : s.clearMarker.bp = s.bp := by
  unfold State.clearMarker; split <;> rfl
@[simp] theorem State.clearMarker_lastBp (s : State) : s.clearMarker.lastBp = if s.atBreakpoint then s.lastBp else none := by
  unfold State.clearMarker; split <;> rfl
@[simp] theorem State.clearMarker_romMax (s : State) : s.clearMarker.romMax = s.romMax := by
  unfold State.clearMarker; split <;> rfl
@[simp] theorem State.clearMarker_inputs (s : State) : s.clearMarker.inputs = s.inputs := by
  unfold State.clearMarker; split <;> rfl
@[simp] theorem State.clearMarker_rndCount (s : State) : s.clearMarker.rndCount = s.rndCount := by
  unfold State.clearMarker; split <;> rfl
@[simp] theorem State.clearMarker_faults (s : State) : s.clearMarker.faults = s.faults := by
  unfold State.clearMarker; split <;> rfl
@[simp] theorem State.clearMarker_out (s : State) : s.clearMarker.out = s.out := by
  unfold State.clearMarker; split <;> rfl
@[simp] theorem State.clearMarker_trace (s : State) : s.clearMarker.trace = s.trace := by
  unfold State.clearMarker; split <;> rfl
@[simp] theorem State.clearMarker_results (s : State) : s.clearMarker.results = s.results := by
  unfold State.clearMarker; split <;> rfl

end Sys2Proof.Machine
end

