-- ==== Sys2Proof/Laws/Ops.lean ====
section
/-! SUPPORT. One law for each shared operation: everything it can do, so that a proof cites it and does not unfold it. -/

namespace Sys2Proof.Machine

/-! ### General registers -/

/-- Two registers are the same or are not: a read after a write. -/
theorem State.getV_setV (s : State) (r q : Nibble) (b : Byte) :
    (s.setV r b).getV q = if r = q then b else s.getV q := by
  simp only [State.getV, State.setV, Vector.getElem_set]
  by_cases h : r = q
  · simp [h]
  · rw [if_neg h, if_neg fun e => h (BitVec.eq_of_toNat_eq e)]

@[simp] theorem State.getV_setV_same (s : State) (r : Nibble) (b : Byte) : (s.setV r b).getV r = b := by
  rw [State.getV_setV, if_pos rfl]

theorem State.getV_setV_of_ne (s : State) {r q : Nibble} (b : Byte) (h : r ≠ q) :
    (s.setV r b).getV q = s.getV q := by
  rw [State.getV_setV, if_neg h]

/-- A register reads from the field `v` alone. -/
theorem State.getV_congr {s t : State} (h : t.v = s.v) (r : Nibble) : t.getV r = s.getV r := by
  simp [State.getV, h]

/-- Two register files that read alike are the same. -/
theorem State.v_ext {s t : State} (h : ∀ r, t.getV r = s.getV r) : t.v = s.v := by
  apply Vector.ext
  intro k hk
  simpa [State.getV, BitVec.toNat_ofNat, Nat.mod_eq_of_lt hk] using h (BitVec.ofNat 4 k)

/-- The block load: register `k + j` gets the j-th byte, the others stay. -/
theorem State.getV_setVs (s : State) (k : Nat) (bs : List Byte) (h : k + bs.length ≤ 16) (q : Nibble) :
    (s.setVs k bs).getV q = if k ≤ q.toNat then (bs[q.toNat - k]?).getD (s.getV q) else s.getV q := by
  induction bs generalizing s k with
  | nil => simp [State.setVs]
  | cons b bs ih =>
    have hk : k < 16 := by simp at h; omega
    have hq := nibble_lt q
    rw [State.setVs, ih _ _ (by simp at h; omega)]
    rcases Nat.lt_trichotomy q.toNat k with hlt | heq | hgt
    · rw [if_neg (by omega), if_neg (by omega), State.getV_setV_of_ne]
      rintro rfl; simp [Nat.mod_eq_of_lt hk] at hlt
    · have : BitVec.ofNat 4 k = q := BitVec.eq_of_toNat_eq (by simp [← heq])
      subst this
      simp [Nat.mod_eq_of_lt hk]
    · have e : q.toNat - k = (q.toNat - (k + 1)) + 1 := by omega
      rw [if_pos (by omega), if_pos (by omega), e, List.getElem?_cons_succ, State.getV_setV_of_ne]
      rintro rfl; simp [Nat.mod_eq_of_lt hk] at hgt

/-- The block load writes registers and their notices, nothing else. -/
theorem State.setVs_frame (s : State) (k : Nat) (bs : List Byte) :
    s.setVs k bs = { s with v := (s.setVs k bs).v, trace := (s.setVs k bs).trace } := by
  induction bs generalizing s k with
  | nil => rfl
  | cons b bs ih => rw [State.setVs, ih]; rfl

/-- The notices of the block load. -/
theorem State.setVs_trace (s : State) (k : Nat) (bs : List Byte) (h : k + bs.length ≤ 16) :
    (s.setVs k bs).trace = s.trace ++ (List.range bs.length).map fun j => .v (k + j) := by
  induction bs generalizing s k with
  | nil => simp [State.setVs]
  | cons b bs ih =>
    simp at h
    rw [State.setVs, ih _ _ (by omega)]
    simp [List.range_succ_eq_map, State.setV, Nat.mod_eq_of_lt (show k < 16 by omega)]
    intro a ha; omega

/-- The values FX55 stores. -/
theorem length_regsUpTo (s : State) (x : Nibble) : (regsUpTo s x).length = x.toNat + 1 := by
  simp [regsUpTo]

theorem getElem?_regsUpTo (s : State) (x : Nibble) {r : Nat} (h : r ≤ x.toNat) :
    (regsUpTo s x)[r]? = some (s.getV (BitVec.ofNat 4 r)) := by
  simp [regsUpTo, Nat.lt_succ_of_le h]

/-! ### Skips, keys, stores at I -/

/-- A skip always completes. -/
theorem skipIf_eq (c : Bool) (s : State) : skipIf c s = .next (if c then s.setPc (s.pc + 2) else s) := rfl

/-- A key instruction raises KeyRange, or goes on with the key's flag. -/
theorem withKey_cases (x : Nibble) (s : State) (f : Bool → Result) :
    (15 < (s.getV x).toNat ∧ withKey x s f = .next (s.halt .keyrange)) ∨
    ∃ h : (s.getV x).toNat < 16, withKey x s f = f (s.key[(s.getV x).toNat]'h) := by
  unfold withKey
  split
  · next h => exact .inr ⟨h, rfl⟩
  · exact .inl ⟨by omega, rfl⟩

/-- A store at I raises MemRange, or stores every byte. -/
theorem storeAtI_cases (bs : List Byte) (s : State) :
    ((bs = [] ∨ s.i.toNat + bs.length ≤ memSize) ∧ storeAtI bs s = .next (s.storeBytes s.i.toNat bs)) ∨
    ((bs ≠ [] ∧ memSize < s.i.toNat + bs.length) ∧ storeAtI bs s = .next (s.halt .memrange)) := by
  unfold storeAtI State.memWrite
  by_cases h : inRange s.i.toNat bs.length = true
  · exact .inl ⟨by simpa using (inRange_iff _ _).1 h, by simp [h]⟩
  · have h' := (inRange_eq_false_iff _ _).1 (by simpa using h)
    exact .inr ⟨⟨fun e => h'.1 (by simp [e]), h'.2⟩, by simp [h, raise]⟩

/-! ### The framebuffer -/

/-- A cell after a toggle. -/
theorem State.cell_toggle (s : State) (x x' : Fin 64) (y y' : Fin 32) :
    (s.toggle x y).cell x' y' = if x = x' ∧ y = y' then !s.cell x y else s.cell x' y' := by
  simp only [State.cell, State.toggle, Vector.getElem_set]
  by_cases hy : y = y'
  · subst hy
    by_cases hx : x = x'
    · subst hx; simp
    · simp [hx, Fin.val_inj]
  · simp [hy, Fin.val_inj]

/-- A cell reads from the field `fb` alone. -/
theorem State.cell_congr {s t : State} (h : t.fb = s.fb) (x : Fin 64) (y : Fin 32) : t.cell x y = s.cell x y := by
  simp [State.cell, h]

/-- Two framebuffers that read alike are the same. -/
theorem State.fb_ext {s t : State} (h : ∀ x y, t.cell x y = s.cell x y) : t.fb = s.fb := by
  apply Vector.ext; intro y hy
  apply Vector.ext; intro x hx
  exact h ⟨x, hx⟩ ⟨y, hy⟩

/-- Collision writes VF and its notice, nothing else. -/
theorem State.collide_frame (s : State) (x : Fin 64) (y : Fin 32) :
    s.collide x y = { s with v := (s.collide x y).v, trace := (s.collide x y).trace } := by
  unfold State.collide; split <;> rfl

/-- One set sprite bit writes VF, the framebuffer, an event and notices, nothing else. -/
theorem State.plot_frame (s : State) (p : Fin 64 × Fin 32) :
    s.plot p = { s with v := (s.plot p).v, fb := (s.plot p).fb, out := (s.plot p).out, trace := (s.plot p).trace } := by
  unfold State.plot; rw [State.collide_frame]; rfl

/-- A draw writes VF, the framebuffer, events and notices, nothing else. -/
theorem State.plotAll_frame (ps : List (Fin 64 × Fin 32)) (s : State) :
    ps.foldl State.plot s =
      { s with
        v := (ps.foldl State.plot s).v, fb := (ps.foldl State.plot s).fb
        out := (ps.foldl State.plot s).out, trace := (ps.foldl State.plot s).trace } := by
  induction ps generalizing s with
  | nil => rfl
  | cons p ps ih => rw [List.foldl_cons, ih, State.plot_frame]

/-- VF after one set sprite bit: 1 if the cell was 1, else as before. -/
theorem State.getV_plot (s : State) (p : Fin 64 × Fin 32) (q : Nibble) :
    (s.plot p).getV q = if s.cell p.1 p.2 = true ∧ q = vf then 1 else s.getV q := by
  have : (s.plot p).getV q = (s.collide p.1 p.2).getV q := State.getV_congr rfl q
  rw [this, State.collide]
  by_cases h : s.cell p.1 p.2 = true
  · simp [h, State.getV_setV, eq_comm]
  · simp [h]

/-- A cell after one set sprite bit. -/
theorem State.cell_plot (s : State) (p : Fin 64 × Fin 32) (x : Fin 64) (y : Fin 32) :
    (s.plot p).cell x y = if p = (x, y) then !s.cell x y else s.cell x y := by
  have e : (s.plot p).cell x y = ((s.collide p.1 p.2).toggle p.1 p.2).cell x y := State.cell_congr rfl x y
  have c : ∀ x y, (s.collide p.1 p.2).cell x y = s.cell x y := fun x y =>
    State.cell_congr (by rw [State.collide_frame]) x y
  rw [e, State.cell_toggle, c, c]
  obtain ⟨a, b⟩ := p
  by_cases h : a = x ∧ b = y
  · obtain ⟨rfl, rfl⟩ := h; simp
  · simp [h]

/-! ### The cycle and the step -/

/-- A fetch reads two bytes that both exist. -/
theorem fetchAt_eq (m : Memory) (a : Nat) :
    fetchAt m a = if a + 2 ≤ memSize then some (wordOf (m.get a) (m.get (a + 1))) else none := by
  unfold fetchAt
  rcases m.read_cases a 2 with ⟨h, e⟩ | ⟨h, e⟩ <;> rw [e]
  · rw [if_pos (by omega)]; rfl
  · rw [if_neg (by omega)]

/-- All that `cycle()` can do, in its order: overflow, breakpoint, a fetch that faults, or the fetched word is run. -/
theorem cycle_cases (s : State) :
    (0xFFF < s.pc.toNat ∧ cycle s = .next (s.halt .overflow)) ∨
    (s.pc.toNat ≤ 0xFFF ∧ s.breaks = true ∧ cycle s = .next s.breakHere) ∨
    (s.pc.toNat = 0xFFF ∧ s.breaks = false ∧ cycle s = .next (s.clearMarker.halt .memrange)) ∨
    (s.pc.toNat ≤ 0xFFE ∧ s.breaks = false ∧
      cycle s = runWord (wordOf (s.mem.get s.pc.toNat) (s.mem.get (s.pc.toNat + 1))) s.clearMarker.advance) := by
  unfold cycle State.overflowed
  by_cases ho : 0xFFF < s.pc.toNat
  · exact .inl ⟨ho, by simp [ho, raise]⟩
  · rw [if_neg (by simpa using ho)]
    by_cases hb : s.breaks = true
    · exact .inr (.inl ⟨by omega, hb, by rw [if_pos hb]⟩)
    · have hb' : s.breaks = false := by simpa using hb
      rw [if_neg hb]
      unfold fetchAndRun
      rw [State.clearMarker_mem, State.clearMarker_pc, fetchAt_eq]
      by_cases hf : s.pc.toNat + 2 ≤ memSize
      · exact .inr (.inr (.inr ⟨by simp [memSize] at hf; omega, hb', by rw [if_pos hf]⟩))
      · exact .inr (.inr (.inl ⟨by simp [memSize] at hf; omega, hb', by rw [if_neg hf]; rfl⟩))

/-- All that running a fetched word can do, on a machine that ignores N of 5XYN and 9XYN. -/
theorem runWord_cases (w : Word) (s : State) :
    (∃ i, decodeWord Config.strict59 w = .ok i ∧ runWord w s = exec i s) ∨
    (decodeWord Config.strict59 w = .error .strict59 ∧ runWord w s = .refused .strict59) ∨
    (∃ e, e ≠ .strict59 ∧ decodeWord Config.strict59 w = .error e ∧ runWord w s = .next (s.halt .illegal)) := by
  unfold runWord
  cases h : decodeWord Config.strict59 w with
  | ok i => exact .inl ⟨i, rfl, rfl⟩
  | error e => cases e <;> simp [raise]

theorem State.tickDelay_dt (s : State) : s.tickDelay.dt = if s.dt = 0 then 0 else s.dt - 1 := by
  unfold State.tickDelay; split <;> simp [*]

theorem State.tickDelay_st (s : State) : s.tickDelay.st = s.st := by
  unfold State.tickDelay; split <;> rfl

theorem State.tickSound_dt (s : State) : s.tickSound.dt = s.dt := by
  unfold State.tickSound; split <;> rfl

theorem State.tickSound_st (s : State) : s.tickSound.st = if s.st = 0 then 0 else s.st - 1 := by
  unfold State.tickSound; split <;> simp [*]

/-- The timer tick takes DT and ST down by one each, unless they are 0. -/
theorem timerTick_timers (s : State) :
    (timerTick s).dt = (if s.dt = 0 then 0 else s.dt - 1) ∧ (timerTick s).st = (if s.st = 0 then 0 else s.st - 1) := by
  simp [timerTick, State.tickSound_dt, State.tickSound_st, State.tickDelay_dt, State.tickDelay_st]

/-- The timer tick writes the timers, an audio event and notices, nothing else. -/
theorem timerTick_frame (s : State) :
    timerTick s =
      { s with
        dt := (timerTick s).dt, st := (timerTick s).st, out := (timerTick s).out, trace := (timerTick s).trace } := by
  unfold timerTick State.tickSound State.tickDelay
  split <;> split <;> rfl

/-- DT after a tick. -/
theorem State.tickDelay_eq (s : State) :
    s.tickDelay =
      { s with
        dt := BitVec.ofNat 8 (s.dt.toNat - 1), trace := s.trace ++ if s.dt.toNat = 0 then [] else [.dt] } := by
  have hd := s.dt.isLt
  unfold State.tickDelay
  by_cases h : s.dt = 0
  · rw [if_pos h]
    have h' : s.dt = 0#8 := h
    rw [h']; simp; rw [← h']
  · have hn : s.dt.toNat ≠ 0 := fun e => h (BitVec.eq_of_toNat_eq e)
    rw [if_neg h, if_neg hn]
    unfold State.setDt
    congr 1
    bv_omega

/-- ST after a tick, and its event. -/
theorem State.tickSound_eq (s : State) :
    s.tickSound =
      { s with
        st := BitVec.ofNat 8 (s.st.toNat - 1), trace := s.trace ++ if s.st.toNat = 0 then [] else [.st]
        out := s.out ++ if s.st.toNat = 0 then [] else if s.st.toNat = 1 then [.toneOff] else [.toneOn] } := by
  have hd := s.st.isLt
  unfold State.tickSound
  by_cases h : s.st = 0
  · rw [if_pos h]
    have h' : s.st = 0#8 := h
    rw [h']; simp; rw [← h']
  · have hn : s.st.toNat ≠ 0 := fun e => h (BitVec.eq_of_toNat_eq e)
    rw [if_neg h, if_neg hn, if_neg hn]
    unfold State.setSt State.emit
    congr 1
    · bv_omega
    · by_cases h₁ : s.st = 1
      · simp [h₁]
      · have : s.st.toNat ≠ 1 := fun e => h₁ (BitVec.eq_of_toNat_eq e)
        rw [if_neg h₁, if_neg this]

/-! ### The breakpoint set -/

theorem mem_insertAddr (l : List Nat) (x a : Nat) : a ∈ insertAddr l x ↔ a ∈ l ∨ a = x := by
  induction l with
  | nil => simp [insertAddr]
  | cons b l ih =>
    unfold insertAddr
    split
    · simp; tauto
    · split
      · next h => subst h; simp; tauto
      · simp [ih]; tauto

/-- Inserting keeps the list ascending. -/
theorem insertAddr_pairwise {l : List Nat} (x : Nat) (h : l.Pairwise (· < ·)) : (insertAddr l x).Pairwise (· < ·) := by
  induction l with
  | nil => simp [insertAddr]
  | cons b l ih =>
    obtain ⟨hb, hl⟩ := List.pairwise_cons.1 h
    unfold insertAddr
    split
    · refine List.pairwise_cons.2 ⟨fun c hc => ?_, h⟩
      rcases List.mem_cons.1 hc with rfl | hc
      · assumption
      · have := hb c hc; omega
    · split
      · exact h
      · refine List.pairwise_cons.2 ⟨fun c hc => ?_, ih hl⟩
        rcases (mem_insertAddr l x c).1 hc with hc | rfl
        · exact hb c hc
        · omega

/-- Which event is next: the oldest of the schedule; with none listed a cycle tick of a running machine, and no event of one
that is not running. -/
theorem nextInput_cases (s : State) :
    (∃ e rest, s.inputs = e :: rest ∧ s.nextInput = some e) ∨
    (s.inputs = [] ∧ s.sched = .running ∧ s.nextInput = some .cycleTick) ∨
    (s.inputs = [] ∧ s.sched ≠ .running ∧ s.nextInput = none) := by
  unfold State.nextInput
  rcases hi : s.inputs with _ | ⟨e, rest⟩
  · by_cases hr : s.sched = .running <;> simp [hr]
  · exact .inl ⟨e, rest, rfl, rfl⟩

/-- A step takes the oldest event of the schedule. -/
theorem step_of_inputs {s : State} {e : Input} {rest : List Input} (h : s.inputs = e :: rest) :
    step s = takeInput e s.popInput := by
  simp [step, takeNext, State.nextInput, h]

/-- With no event listed, a machine that is not running does nothing at all (R218). -/
theorem step_of_no_inputs {s : State} (h : s.inputs = []) (hr : s.sched ≠ .running) : step s = .next s := by
  simp [step, takeNext, State.nextInput, h, hr]

end Sys2Proof.Machine
end

