-- ==== Sys2Proof/Laws/Draw.lean ====
section
/-! SUPPORT. What DXYN's shared operations do as a whole: which cells a sprite meets, that it meets none twice, and what
plotting a list of distinct cells leaves (44_display.md R171). -/

namespace Sys2Proof.Machine

/-- The set columns of a sprite byte, by bit number: column c is bit 7 - c. -/
theorem setColumns_eq (b : Byte) : setColumns b = (List.range 8).filter fun c => b.getLsbD (7 - c) := by
  have bit : ∀ b : Byte, ∀ c < 8, (b &&& (0x80#8 >>> c) != 0) = b.getLsbD (7 - c) := by decide +kernel
  exact List.filter_congr fun c hc => bit b c (List.mem_range.1 hc)

/-- The cells that rows `r` and on of a sprite meet, in order. -/
theorem pixelsFrom_eq (vx vy : Byte) (r : Nat) (f : Nat → Byte) (n : Nat) :
    pixelsFrom vx vy r ((List.range n).map f) =
      (List.range n).flatMap fun k => (setColumns (f k)).map fun c => (column vx c, row vy (r + k)) := by
  induction n generalizing r f with
  | zero => rfl
  | succ n ih =>
    rw [List.range_succ_eq_map, List.map_cons, List.map_map, pixelsFrom, ih]
    simp [List.flatMap_map]
    congr 1; funext k; simp [Nat.add_assoc, Nat.add_comm 1]

/-- A sprite of at most 15 rows and 8 columns meets no cell twice. -/
theorem pixelsFrom_nodup (vx vy : Byte) (f : Nat → Byte) {n : Nat} (hn : n ≤ 15) :
    (pixelsFrom vx vy 0 ((List.range n).map f)).Nodup := by
  rw [pixelsFrom_eq, List.nodup_flatMap]
  refine ⟨fun k _ => ?_, ?_⟩
  · refine List.Nodup.map_on (fun c hc d hd e => ?_) (List.nodup_range.filter _)
    simp [setColumns] at hc hd
    simp [column] at e; omega
  · refine List.Pairwise.imp_of_mem (fun {a b} ha hb hab => ?_) (List.nodup_range (n := n))
    simp at ha hb
    simp [Function.onFun, List.disjoint_left]
    intro x hx y hy _ e
    simp [row] at e; omega

/-- Plotting one cell emits one event, with its new value. -/
theorem State.plot_out (s : State) (p : Fin 64 × Fin 32) :
    (s.plot p).out = s.out ++ [.pixel p.1.val p.2.val (!s.cell p.1 p.2)] := by
  have : (s.collide p.1 p.2).out = s.out := by rw [State.collide_frame]
  show (s.collide p.1 p.2).out ++ _ = _
  rw [this]

/-- Plotting distinct cells: each is toggled, VF becomes 1 if one of them was 1, and each gives its event in turn. -/
theorem State.plotAll_eq {ps : List (Fin 64 × Fin 32)} (hp : ps.Nodup) (s : State) :
    (∀ x y, (ps.foldl State.plot s).cell x y = if (x, y) ∈ ps then !s.cell x y else s.cell x y) ∧
    (ps.foldl State.plot s).getV vf = (if ∃ p ∈ ps, s.cell p.1 p.2 = true then 1 else s.getV vf) ∧
    (∀ r : Nibble, r ≠ vf → (ps.foldl State.plot s).getV r = s.getV r) ∧
    (ps.foldl State.plot s).out = s.out ++ ps.map fun p => .pixel p.1.val p.2.val (!s.cell p.1 p.2) := by
  induction ps generalizing s with
  | nil => simp
  | cons p ps ih =>
    obtain ⟨hn, hp⟩ := List.nodup_cons.1 hp
    obtain ⟨a, b, c, d⟩ := ih hp (s.plot p)
    have other : ∀ q ∈ ps, (s.plot p).cell q.1 q.2 = s.cell q.1 q.2 := by
      intro q hq; rw [State.cell_plot, if_neg]; rintro rfl; exact hn hq
    rw [List.foldl_cons]
    refine ⟨fun x y => ?_, ?_, fun r hr => ?_, ?_⟩
    · rw [a, State.cell_plot]
      by_cases h : p = (x, y)
      · subst h; simp [hn]
      · simp [h, Ne.symm h]
    · rw [b, State.getV_plot]
      have : (∃ q ∈ ps, (s.plot p).cell q.1 q.2 = true) ↔ ∃ q ∈ ps, s.cell q.1 q.2 = true := by
        constructor <;> rintro ⟨q, hq, h⟩ <;> refine ⟨q, hq, ?_⟩ <;> rw [other q hq] at * <;> exact h
      simp only [this]
      by_cases h₁ : ∃ q ∈ ps, s.cell q.1 q.2 = true <;> by_cases h₂ : s.cell p.1 p.2 = true <;>
        simp only [List.mem_cons, exists_eq_or_imp, h₁, h₂] <;> simp
    · rw [c r hr, State.getV_plot, if_neg]; exact fun h => hr h.2
    · rw [d, State.plot_out, List.map_cons, List.append_assoc, List.singleton_append]
      congr 2
      exact List.map_congr_left fun q hq => by rw [other q hq]

end Sys2Proof.Machine
end

