-- ==== Sys2Proof/Laws/PerInstr.lean ====
section
/-! SUPPORT. The laws that are made one instruction at a time.  Family OpcodeRow: the word the encoder gives an
instruction is in that instruction's row of the opcode map (30_encoding.md R65). -/

namespace Sys2Proof.Laws

/-! ### What each mask keeps of a word of each format -/

theorem mask_addr (c : Nibble) (nnn : Addr12) : ofAddr c nnn &&& 0xF000 = c ++ (0 : Addr12) := by
  apply BitVec.eq_of_getLsbD_eq; intro k hk
  simp only [ofAddr, BitVec.getLsbD_and, BitVec.getLsbD_append]
  interval_cases k <;> simp

theorem mask_xnn (c x : Nibble) (nn : Byte) : ofXnn c x nn &&& 0xF000 = c ++ (0 : Addr12) := by
  apply BitVec.eq_of_getLsbD_eq; intro k hk
  simp only [ofXnn, BitVec.getLsbD_and, BitVec.getLsbD_append]
  interval_cases k <;> simp

theorem mask_xsub (c x : Nibble) (nn : Byte) : ofXnn c x nn &&& 0xF0FF = c ++ (0 : Nibble) ++ nn := by
  apply BitVec.eq_of_getLsbD_eq; intro k hk
  simp only [ofXnn, BitVec.getLsbD_and, BitVec.getLsbD_append]
  interval_cases k <;> simp

theorem mask_xyn (c x y n : Nibble) : ofNibbles c x y n &&& 0xF000 = c ++ (0 : Addr12) := by
  apply BitVec.eq_of_getLsbD_eq; intro k hk
  simp only [ofNibbles, BitVec.getLsbD_and, BitVec.getLsbD_append]
  interval_cases k <;> simp

theorem mask_xy (c x y n : Nibble) : ofNibbles c x y n &&& 0xF00F = c ++ (0 : Byte) ++ n := by
  apply BitVec.eq_of_getLsbD_eq; intro k hk
  simp only [ofNibbles, BitVec.getLsbD_and, BitVec.getLsbD_append]
  interval_cases k <;> simp

/-- The encoder's word of an instruction is in the instruction's row. -/
def OpcodeRow.Statement (i : Instr) : Prop := encode i &&& (rowOf i).mask = (rowOf i).bits

theorem OpcodeRow.cls : OpcodeRow.Statement .cls :=
  rfl

theorem OpcodeRow.ret : OpcodeRow.Statement .ret :=
  rfl

theorem OpcodeRow.jp (nnn : Addr12) : OpcodeRow.Statement (.jp nnn) :=
  (mask_addr _ nnn).trans rfl

theorem OpcodeRow.call (nnn : Addr12) : OpcodeRow.Statement (.call nnn) :=
  (mask_addr _ nnn).trans rfl

theorem OpcodeRow.seImm (x : Nibble) (nn : Byte) : OpcodeRow.Statement (.seImm x nn) :=
  (mask_xnn _ x nn).trans rfl

theorem OpcodeRow.sneImm (x : Nibble) (nn : Byte) : OpcodeRow.Statement (.sneImm x nn) :=
  (mask_xnn _ x nn).trans rfl

theorem OpcodeRow.seReg (x : Nibble) (y : Nibble) (n : Nibble) : OpcodeRow.Statement (.seReg x y n) :=
  (mask_xyn _ x y n).trans rfl

theorem OpcodeRow.ldImm (x : Nibble) (nn : Byte) : OpcodeRow.Statement (.ldImm x nn) :=
  (mask_xnn _ x nn).trans rfl

theorem OpcodeRow.addImm (x : Nibble) (nn : Byte) : OpcodeRow.Statement (.addImm x nn) :=
  (mask_xnn _ x nn).trans rfl

theorem OpcodeRow.ldReg (x : Nibble) (y : Nibble) : OpcodeRow.Statement (.ldReg x y) :=
  (mask_xy _ x y _).trans rfl

theorem OpcodeRow.orReg (x : Nibble) (y : Nibble) : OpcodeRow.Statement (.orReg x y) :=
  (mask_xy _ x y _).trans rfl

theorem OpcodeRow.andReg (x : Nibble) (y : Nibble) : OpcodeRow.Statement (.andReg x y) :=
  (mask_xy _ x y _).trans rfl

theorem OpcodeRow.xorReg (x : Nibble) (y : Nibble) : OpcodeRow.Statement (.xorReg x y) :=
  (mask_xy _ x y _).trans rfl

theorem OpcodeRow.addReg (x : Nibble) (y : Nibble) : OpcodeRow.Statement (.addReg x y) :=
  (mask_xy _ x y _).trans rfl

theorem OpcodeRow.subReg (x : Nibble) (y : Nibble) : OpcodeRow.Statement (.subReg x y) :=
  (mask_xy _ x y _).trans rfl

theorem OpcodeRow.shr (x : Nibble) (y : Nibble) : OpcodeRow.Statement (.shr x y) :=
  (mask_xy _ x y _).trans rfl

theorem OpcodeRow.subnReg (x : Nibble) (y : Nibble) : OpcodeRow.Statement (.subnReg x y) :=
  (mask_xy _ x y _).trans rfl

theorem OpcodeRow.shl (x : Nibble) (y : Nibble) : OpcodeRow.Statement (.shl x y) :=
  (mask_xy _ x y _).trans rfl

theorem OpcodeRow.sneReg (x : Nibble) (y : Nibble) (n : Nibble) : OpcodeRow.Statement (.sneReg x y n) :=
  (mask_xyn _ x y n).trans rfl

theorem OpcodeRow.ldI (nnn : Addr12) : OpcodeRow.Statement (.ldI nnn) :=
  (mask_addr _ nnn).trans rfl

theorem OpcodeRow.jpV0 (nnn : Addr12) : OpcodeRow.Statement (.jpV0 nnn) :=
  (mask_addr _ nnn).trans rfl

theorem OpcodeRow.rnd (x : Nibble) (nn : Byte) : OpcodeRow.Statement (.rnd x nn) :=
  (mask_xnn _ x nn).trans rfl

theorem OpcodeRow.drw (x : Nibble) (y : Nibble) (n : Nibble) : OpcodeRow.Statement (.drw x y n) :=
  (mask_xyn _ x y n).trans rfl

theorem OpcodeRow.skp (x : Nibble) : OpcodeRow.Statement (.skp x) :=
  (mask_xsub _ x _).trans rfl

theorem OpcodeRow.sknp (x : Nibble) : OpcodeRow.Statement (.sknp x) :=
  (mask_xsub _ x _).trans rfl

theorem OpcodeRow.ldVxDt (x : Nibble) : OpcodeRow.Statement (.ldVxDt x) :=
  (mask_xsub _ x _).trans rfl

theorem OpcodeRow.ldVxK (x : Nibble) : OpcodeRow.Statement (.ldVxK x) :=
  (mask_xsub _ x _).trans rfl

theorem OpcodeRow.ldDtVx (x : Nibble) : OpcodeRow.Statement (.ldDtVx x) :=
  (mask_xsub _ x _).trans rfl

theorem OpcodeRow.ldStVx (x : Nibble) : OpcodeRow.Statement (.ldStVx x) :=
  (mask_xsub _ x _).trans rfl

theorem OpcodeRow.addI (x : Nibble) : OpcodeRow.Statement (.addI x) :=
  (mask_xsub _ x _).trans rfl

theorem OpcodeRow.ldF (x : Nibble) : OpcodeRow.Statement (.ldF x) :=
  (mask_xsub _ x _).trans rfl

theorem OpcodeRow.ldB (x : Nibble) : OpcodeRow.Statement (.ldB x) :=
  (mask_xsub _ x _).trans rfl

theorem OpcodeRow.stRegs (x : Nibble) : OpcodeRow.Statement (.stRegs x) :=
  (mask_xsub _ x _).trans rfl

theorem OpcodeRow.ldRegs (x : Nibble) : OpcodeRow.Statement (.ldRegs x) :=
  (mask_xsub _ x _).trans rfl

end Sys2Proof.Laws
end

