-- ==== Sys2Proof/Laws/Run.lean ====
section
/-! SUPPORT. A run of several steps, one step at a time. -/

namespace Sys2Proof.Machine

/-- A run goes on from the next state. -/
theorem run_succ_of_next (k : Nat) {s t : State} (h : step s = .next t) : core.run (k + 1) s = core.run k t := by
  have general : ∀ (M : Host.Core) (s t : M.State), M.step s = .next t → M.run (k + 1) s = M.run k t := by
    intro M s t h; rw [Host.Core.run, h]
  exact general core s t h

end Sys2Proof.Machine
end

