-- ==== Sys2Proof/Tests/Slice0.lean ====
section
/-! SUPPORT. The model's own tests: the ill-formed terms that WellFormed refuses; one word for every constructor, written
out bit by bit from its pattern in R65; one step of each instruction against the vectors of spec/95_test_vectors.md, whose
numbers (S1, T20, ...) the comments give; and a witness for the hypotheses of every statement. -/

namespace Sys2Proof.Tests

open Sys2Proof.Machine Sys2Proof.Statements

/-! ### Helpers -/

/-- The machine after power-on with some registers set, and PC past an instruction at 0x200. -/
def regs (l : List (Nibble × Byte)) : State :=
  { l.foldl (fun s p => s.setV p.1 p.2) State.reset with pc := 0x202, trace := [] }

/-- That machine with I set too, and bytes stored at an address. -/
def regsI (i : Word) (a : Nat) (bytes : List Byte) (l : List (Nibble × Byte)) : State :=
  { regs l with i := i, mem := Memory.putAll [] a bytes }

/-- What a function of the next state gives; none for another outcome. -/
def seen {α : Type} (f : State → α) : Result → Option α
  | .next t => some (f t)
  | _ => none

/-- A framebuffer whose cells are all `b`. -/
def filled (b : Bool) : Vector (Vector Bool 64) 32 := Vector.replicate 32 (Vector.replicate 64 b)

/-- The machine with events to come. -/
def withEvents (l : List Input) (s : State) : State := { s with inputs := l }

/-! ### WellFormed: the low nibble of 5XYN and 9XYN under the strict reading (R67) -/

theorem test_wellFormed_strict_refuses_seReg : Instr.wellFormed true (.seReg 1 2 1) = false := by decide
theorem test_wellFormed_strict_refuses_sneReg : Instr.wellFormed true (.sneReg 1 2 0xF) = false := by decide
theorem test_wellFormed_strict_takes_zero :
    Instr.wellFormed true (.seReg 1 2 0) = true ∧ Instr.wellFormed true (.sneReg 1 2 0) = true := by decide
theorem test_wellFormed_takes_ignored : Instr.WellFormed (.seReg 1 2 1) ∧ Instr.WellFormed (.sneReg 1 2 0xF) := by decide
theorem test_decode_strict_refuses :
    decodeWord true 0x5121 = .error .strict59 ∧ decodeWord true 0x912F = .error .strict59 := by decide

/-! ### Decoding, bit by bit (R65): class, X, Y, N, the nibbles in that order -/

theorem test_decode_cls : decodeWord Config.strict59 0b0000_0000_1110_0000 = .ok (.cls) := by decide
theorem test_decode_ret : decodeWord Config.strict59 0b0000_0000_1110_1110 = .ok (.ret) := by decide
theorem test_decode_jp : decodeWord Config.strict59 0b0001_1010_1011_1100 = .ok (.jp 0xABC) := by decide
theorem test_decode_call : decodeWord Config.strict59 0b0010_0010_0000_1010 = .ok (.call 0x20A) := by decide
theorem test_decode_seImm : decodeWord Config.strict59 0b0011_0001_0100_0010 = .ok (.seImm 1 0x42) := by decide
theorem test_decode_sneImm : decodeWord Config.strict59 0b0100_0001_0100_0011 = .ok (.sneImm 1 0x43) := by decide
theorem test_decode_seReg : decodeWord Config.strict59 0b0101_0001_0010_0001 = .ok (.seReg 1 2 1) := by decide
theorem test_decode_ldImm : decodeWord Config.strict59 0b0110_1010_1111_1110 = .ok (.ldImm 0xA 0xFE) := by decide
theorem test_decode_addImm : decodeWord Config.strict59 0b0111_0001_1111_1111 = .ok (.addImm 1 0xFF) := by decide
theorem test_decode_ldReg : decodeWord Config.strict59 0b1000_0001_0010_0000 = .ok (.ldReg 1 2) := by decide
theorem test_decode_orReg : decodeWord Config.strict59 0b1000_0001_0010_0001 = .ok (.orReg 1 2) := by decide
theorem test_decode_andReg : decodeWord Config.strict59 0b1000_0001_0010_0010 = .ok (.andReg 1 2) := by decide
theorem test_decode_xorReg : decodeWord Config.strict59 0b1000_0001_0010_0011 = .ok (.xorReg 1 2) := by decide
theorem test_decode_addReg : decodeWord Config.strict59 0b1000_0001_0010_0100 = .ok (.addReg 1 2) := by decide
theorem test_decode_subReg : decodeWord Config.strict59 0b1000_0001_0010_0101 = .ok (.subReg 1 2) := by decide
theorem test_decode_shr : decodeWord Config.strict59 0b1000_1010_1011_0110 = .ok (.shr 0xA 0xB) := by decide
theorem test_decode_subnReg : decodeWord Config.strict59 0b1000_0001_0010_0111 = .ok (.subnReg 1 2) := by decide
theorem test_decode_shl : decodeWord Config.strict59 0b1000_1010_1011_1110 = .ok (.shl 0xA 0xB) := by decide
theorem test_decode_sneReg : decodeWord Config.strict59 0b1001_0001_0010_1111 = .ok (.sneReg 1 2 0xF) := by decide
theorem test_decode_ldI : decodeWord Config.strict59 0b1010_0010_0000_1110 = .ok (.ldI 0x20E) := by decide
theorem test_decode_jpV0 : decodeWord Config.strict59 0b1011_0011_0000_0001 = .ok (.jpV0 0x301) := by decide
theorem test_decode_rnd : decodeWord Config.strict59 0b1100_0011_0000_1111 = .ok (.rnd 3 0x0F) := by decide
theorem test_decode_drw : decodeWord Config.strict59 0b1101_0001_0010_0101 = .ok (.drw 1 2 5) := by decide
theorem test_decode_skp : decodeWord Config.strict59 0b1110_0001_1001_1110 = .ok (.skp 1) := by decide
theorem test_decode_sknp : decodeWord Config.strict59 0b1110_0001_1010_0001 = .ok (.sknp 1) := by decide
theorem test_decode_ldVxDt : decodeWord Config.strict59 0b1111_0010_0000_0111 = .ok (.ldVxDt 2) := by decide
theorem test_decode_ldVxK : decodeWord Config.strict59 0b1111_0011_0000_1010 = .ok (.ldVxK 3) := by decide
theorem test_decode_ldDtVx : decodeWord Config.strict59 0b1111_0010_0001_0101 = .ok (.ldDtVx 2) := by decide
theorem test_decode_ldStVx : decodeWord Config.strict59 0b1111_0010_0001_1000 = .ok (.ldStVx 2) := by decide
theorem test_decode_addI : decodeWord Config.strict59 0b1111_0001_0001_1110 = .ok (.addI 1) := by decide
theorem test_decode_ldF : decodeWord Config.strict59 0b1111_0001_0010_1001 = .ok (.ldF 1) := by decide
theorem test_decode_ldB : decodeWord Config.strict59 0b1111_0001_0011_0011 = .ok (.ldB 1) := by decide
theorem test_decode_stRegs : decodeWord Config.strict59 0b1111_0011_0101_0101 = .ok (.stRegs 3) := by decide
theorem test_decode_ldRegs : decodeWord Config.strict59 0b1111_0011_0110_0101 = .ok (.ldRegs 3) := by decide

/-- T3 to T7. -/
theorem test_decode_illegal_class0 : [0x0000, 0x00E1, 0x00EF, 0x0123, 0x0FFF].map (decodeWord Config.strict59) =
    List.replicate 5 (.error .illegalClass0) := by decide
theorem test_decode_illegal_class8 : [0x8008, 0x8129, 0x812F].map (decodeWord Config.strict59) =
    List.replicate 3 (.error .illegalClass8) := by decide
theorem test_decode_illegal_classE : [0xE09F, 0xE000, 0xEFA0, 0xE19D].map (decodeWord Config.strict59) =
    List.replicate 4 (.error .illegalClassE) := by decide
theorem test_decode_illegal_classF : [0xF000, 0xF008, 0xF056, 0xF1FF, 0xF075, 0xF085].map (decodeWord Config.strict59) =
    List.replicate 6 (.error .illegalClassF) := by decide
theorem test_decode_short : decode [] = .error .tooShort ∧ decode [0x12] = .error .tooShort := by decide
/-- The first byte is the high one (S1), and the rest is left. -/
theorem test_decode_bytes : decode [0xD1, 0x25, 0x60] = .ok (.drw 1 2 5, [0x60]) := by decide
theorem test_decodeTableWord : decodeTableWord 16 0xD125 = some (.drw 1 2 5) ∧ decodeTableWord 16 0x8008 = none := by decide
/-- R218: a core that is never run never executes. -/
theorem test_step_without_events : step State.reset = .next State.reset := rfl
/-- Running, a word placed runs as the next cycle tick, whatever events were listed. -/
theorem test_step_placed_running :
    seen (fun t => (t.getV 0, t.pc, t.results))
      (step (State.withFetchWord (withEvents [.timerTick, .host .stop] { State.reset with sched := .running }) 16 0x6005)) =
      some (5, 0x202, []) := by
  decide +kernel
/-- An instruction placed on the machine after power-on is the first to run. -/
theorem test_step_placed :
    seen (fun t => (t.getV 0, t.pc, t.sched)) (step (State.reset.withFetchWord 16 0x6005)) = some (5, 0x202, .idle) := by
  decide +kernel

/-! ### Memory -/

/-- Writing back what an unlisted address reads as removes the entry, so equal memories are equal data. -/
theorem test_memory_canonical :
    (Memory.put [] 0x300 7).put 0x300 0 = [] ∧ (Memory.put [] 0x050 7).put 0x050 0xF0 = [] ∧
    Memory.putAll [] 0x300 [1, 2] = (Memory.put [] 0x301 2).put 0x300 1 := by decide
theorem test_memory_edges : inRange 0xFFF 1 = true ∧ inRange 0xFFF 2 = false ∧ inRange 0xFFFF 0 = true := by decide

/-! ### Control flow -/

/-- T20, T21. -/
theorem test_jp : seen State.pc (exec (.jp 0xABC) (regs [])) = some 0xABC := by decide
/-- T24: no wrap to 12 bits.  T26: V3 is not used. -/
theorem test_jpV0_high : seen State.pc (exec (.jpV0 0xFFF) (regs [(0, 0xFF)])) = some 0x10FE := by decide
theorem test_jpV0_uses_V0 : seen State.pc (exec (.jpV0 0x300) (regs [(3, 0x10)])) = some 0x300 := by decide
/-- T28, T29. -/
theorem test_call_last_slot : seen (fun t => (t.stack[15], t.sp, t.pc)) (exec (.call 0x400) { regs [] with sp := 15 }) =
    some (0x202, 16, 0x400) := by decide
theorem test_call_overflow : seen (fun t => (t.sched, t.sp, t.pc)) (exec (.call 0x400) { regs [] with sp := 16 }) =
    some (.halted .stackoverflow, 16, 0x202) := by decide
/-- T30, T32. -/
theorem test_ret : seen (fun t => (t.sp, t.pc, t.stack[0]))
    (exec .ret { regs [] with sp := 1, stack := (Vector.replicate 16 0).set 0 0x206 }) = some (0, 0x206, 0x206) := by decide
theorem test_ret_underflow :
    seen (fun t => (t.sched, t.sp, t.pc)) (exec .ret (regs [])) = some (.halted .stackunderflow, 0, 0x202) := by decide
/-- T33, T34. -/
theorem test_seImm : seen State.pc (exec (.seImm 1 0x42) (regs [(1, 0x42)])) = some 0x204 := by decide
theorem test_seImm_not : seen State.pc (exec (.seImm 1 0x43) (regs [(1, 0x42)])) = some 0x202 := by decide
/-- T35, T36. -/
theorem test_sneImm_not : seen State.pc (exec (.sneImm 1 0x42) (regs [(1, 0x42)])) = some 0x202 := by decide
theorem test_sneImm : seen State.pc (exec (.sneImm 1 0x43) (regs [(1, 0x42)])) = some 0x204 := by decide
/-- T37, T38. -/
theorem test_seReg : seen State.pc (exec (.seReg 1 2 0) (regs [(1, 7), (2, 7)])) = some 0x204 := by decide
theorem test_seReg_not : seen State.pc (exec (.seReg 1 2 0) (regs [(1, 7), (2, 8)])) = some 0x202 := by decide
/-- T40, T42. -/
theorem test_sneReg : seen State.pc (exec (.sneReg 1 2 0) (regs [(1, 7), (2, 8)])) = some 0x204 := by decide
theorem test_sneReg_same : seen State.pc (exec (.sneReg 4 4 0) (regs [])) = some 0x202 := by decide

/-! ### Load, arithmetic, logic, shift, random -/

/-- T50, T51. -/
theorem test_ldImm : seen (State.getV · 0xA) (exec (.ldImm 0xA 0xFF) (regs [])) = some 0xFF := by decide
/-- T52, T54. -/
theorem test_addImm_wraps : seen (fun t => (t.getV 0, t.getV 15)) (exec (.addImm 0 1) (regs [(0, 0xFF)])) = some (0, 0) := by
  decide
theorem test_addImm_vf : seen (State.getV · 15) (exec (.addImm 15 3) (regs [(15, 0xFE)])) = some 1 := by decide
/-- T55. -/
theorem test_ldReg : seen (fun t => (t.getV 1, t.getV 2)) (exec (.ldReg 1 2) (regs [(2, 0x7B)])) = some (0x7B, 0x7B) := by
  decide
/-- T56 to T58. -/
theorem test_or : seen (fun t => (t.getV 1, t.getV 15)) (exec (.orReg 1 2) (regs [(1, 0xF0), (2, 0x0F), (15, 1)])) =
    some (0xFF, 1) := by decide
theorem test_and : seen (fun t => (t.getV 1, t.getV 15)) (exec (.andReg 1 2) (regs [(1, 0xF0), (2, 0x3C), (15, 1)])) =
    some (0x30, 1) := by decide
theorem test_xor : seen (fun t => (t.getV 1, t.getV 15)) (exec (.xorReg 1 2) (regs [(1, 0xF0), (2, 0x3C), (15, 1)])) =
    some (0xCC, 1) := by decide
/-- T61, T64. -/
theorem test_add_no_carry : seen (fun t => (t.getV 1, t.getV 15)) (exec (.addReg 1 2) (regs [(1, 0x7F), (2, 0x80)])) =
    some (0xFF, 0) := by decide
theorem test_add_vf : seen (State.getV · 15) (exec (.addReg 15 2) (regs [(15, 0xFF), (2, 2)])) = some 1 := by decide
/-- S4, T67. -/
theorem test_sub_borrow : seen (fun t => (t.getV 1, t.getV 15)) (exec (.subReg 1 2) (regs [(1, 1), (2, 2)])) =
    some (0xFF, 0) := by decide
theorem test_sub_equal : seen (fun t => (t.getV 1, t.getV 15)) (exec (.subReg 1 2) (regs [(1, 5), (2, 5)])) =
    some (0, 1) := by decide
/-- T72, T75. -/
theorem test_subn_borrow : seen (fun t => (t.getV 1, t.getV 15)) (exec (.subnReg 1 2) (regs [(1, 2), (2, 1)])) =
    some (0xFF, 0) := by decide
theorem test_subn_vf : seen (State.getV · 15) (exec (.subnReg 15 2) (regs [(15, 5), (2, 3)])) = some 0 := by decide
/-- T77, T80. -/
theorem test_shr : seen (fun t => (t.getV 1, t.getV 2, t.getV 15)) (exec (.shr 1 2) (regs [(1, 4), (2, 0xFF), (15, 1)])) =
    some (2, 0xFF, 0) := by decide
theorem test_shr_vf : seen (State.getV · 15) (exec (.shr 15 0) (regs [(15, 6)])) = some 3 := by decide
/-- T81, T85. -/
theorem test_shl : seen (fun t => (t.getV 1, t.getV 15)) (exec (.shl 1 0) (regs [(1, 0x81)])) = some (2, 1) := by decide
theorem test_shl_vf : seen (State.getV · 15) (exec (.shl 15 0) (regs [(15, 0x41)])) = some 0x82 := by decide
/-- R249: one byte is drawn; its value is open, so the result is not tested. -/
theorem test_rnd_draws : seen State.rndCount (exec (.rnd 3 0x0F) (regs [])) = some 1 := by decide

/-! ### Index register and memory transfer -/

/-- T100. -/
theorem test_ldI : seen State.i (exec (.ldI 0xFFF) (regs [])) = some 0xFFF := by decide
/-- T102, T104. -/
theorem test_addI : seen (fun t => (t.i, t.getV 15)) (exec (.addI 1) { regs [(1, 1)] with i := 0xFFF }) =
    some (0x1000, 0) := by decide
theorem test_addI_wraps : seen State.i (exec (.addI 1) { regs [(1, 0xFF)] with i := 0xFF80 }) = some 0x007F := by decide
/-- T107, T109: the whole byte, not a nibble. -/
theorem test_ldF : seen State.i (exec (.ldF 0) (regs [(0, 0x0F)])) = some 0x09B := by decide
theorem test_ldF_unmasked : seen State.i (exec (.ldF 0) (regs [(0, 0xFF)])) = some 0x54B := by decide
/-- T114, T115. -/
theorem test_ldB : seen (fun t => (List.range 3).map fun k => t.mem.get (0xFFD + k))
    (exec (.ldB 0) { regs [(0, 0x7B)] with i := 0xFFD }) = some [1, 2, 3] := by decide
theorem test_ldB_memrange : seen (fun t => (t.sched, t.mem)) (exec (.ldB 0) { regs [(0, 123)] with i := 0xFFE }) =
    some (.halted .memrange, []) := by decide
/-- T116, T119. -/
theorem test_stRegs : seen (fun t => ((List.range 4).map fun k => t.mem.get (0x400 + k), t.i))
    (exec (.stRegs 2) { regs [(0, 0x11), (1, 0x22), (2, 0x33), (3, 0x44)] with i := 0x400 }) =
    some ([0x11, 0x22, 0x33, 0], 0x400) := by decide
theorem test_stRegs_memrange : seen (fun t => (t.sched, t.mem)) (exec (.stRegs 15) { regs [(0, 1)] with i := 0xFF1 }) =
    some (.halted .memrange, []) := by decide
/-- T122, T124. -/
theorem test_ldRegs : seen (fun t => ((List.range 4).map fun k => t.getV (BitVec.ofNat 4 k), t.i))
    (exec (.ldRegs 2) (regsI 0x300 0x300 [2, 5, 4, 9] [(3, 0x44)])) = some ([2, 5, 4, 0x44], 0x300) := by decide
theorem test_ldRegs_memrange : seen (fun t => (t.sched, t.getV 0)) (exec (.ldRegs 15) (regsI 0xFF8 0xFF8 [9] [])) =
    some (.halted .memrange, 0) := by decide

/-! ### Display -/

/-- T140. -/
theorem test_cls : seen (fun t => (t.fb, t.out)) (exec .cls { regs [] with fb := filled true }) =
    some (filled false, [.clear]) := by decide +kernel
/-- T142: wrap below.  T147: collision and the events in order. -/
theorem test_drw_wraps : seen (fun t => (t.cell 0 31, t.cell 0 0, t.getV 15, t.out))
    (exec (.drw 0 1 2) (regsI 0x300 0x300 [0x80, 0x80] [(1, 31)])) =
    some (true, true, 0, [.pixel 0 31 true, .pixel 0 0 true]) := by decide +kernel
theorem test_drw_collides : seen (fun t => (t.cell 0 0, t.cell 1 0, t.getV 15, t.out))
    (exec (.drw 0 1 1) ((regsI 0x300 0x300 [0xC0] []).toggle 1 0)) =
    some (true, false, 1, [.pixel 0 0 true, .pixel 1 0 false]) := by decide +kernel

/-! ### Keypad and timers -/

/-- T160, T164. -/
theorem test_skp : seen State.pc (exec (.skp 1) ((regs [(1, 10)]).setKey 10 true)) = some 0x204 := by decide
theorem test_skp_keyrange :
    seen (fun t => (t.sched, t.pc)) (exec (.skp 1) (regs [(1, 0x10)])) = some (.halted .keyrange, 0x202) := by decide
/-- T162, T163. -/
theorem test_sknp_down : seen State.pc (exec (.sknp 1) ((regs [(1, 10)]).setKey 10 true)) = some 0x202 := by decide
theorem test_sknp_up : seen State.pc (exec (.sknp 1) (regs [(1, 10)])) = some 0x204 := by decide
/-- T166, T167. -/
theorem test_ldVxK_retries : seen (fun t => (t.pc, t.getV 3)) (exec (.ldVxK 3) (regs [(3, 9)])) = some (0x200, 9) := by decide
theorem test_ldVxK_lowest : seen (fun t => (t.pc, t.getV 3)) (exec (.ldVxK 3) (((regs []).setKey 7 true).setKey 3 true)) =
    some (0x202, 3) := by decide
/-- T169 to T171. -/
theorem test_ldVxDt : seen (State.getV · 2) (exec (.ldVxDt 2) { regs [] with dt := 0x2A }) = some 0x2A := by decide
theorem test_ldDtVx : seen State.dt (exec (.ldDtVx 2) (regs [(2, 0x3C)])) = some 0x3C := by decide
theorem test_ldStVx : seen (fun t => (t.st, t.out)) (exec (.ldStVx 2) (regs [(2, 0x3C)])) = some (0x3C, []) := by decide
/-- T172, T174. -/
theorem test_tick_tone_off :
    ((timerTick { State.reset with dt := 1, st := 1 }).dt, (timerTick { State.reset with dt := 1, st := 1 }).st,
      (timerTick { State.reset with dt := 1, st := 1 }).out) = (0, 0, [.toneOff]) := by decide
/-- T175. -/
theorem test_tick_tone_on : (timerTick { State.reset with st := 3 }).out = [.toneOn] := by decide

/-! ### The cycle and the host -/

/-- T190. -/
theorem test_cycle_overflow : seen (fun t => (t.sched, t.pc, t.faults)) (cycle { State.reset with pc := 0x1000 }) =
    some (.halted .overflow, 0x1000, [.overflow]) := by decide
/-- T191. -/
theorem test_cycle_last_byte : seen (fun t => (t.sched, t.pc)) (cycle { State.reset with pc := 0xFFF }) =
    some (.halted .memrange, 0xFFF) := by decide
/-- T193, T194: the breakpoint halts once. -/
theorem test_breakpoint_halts :
    seen (fun t => (t.sched, t.lastBp, t.pc)) (cycle { State.reset with bp := [0x200] }) =
      some (.halted .breakpoint, some 0x200, 0x200) := by decide
theorem test_breakpoint_passes :
    seen (fun t => (t.getV 0, t.pc)) (cycle { regsI 0 0x200 [0x60, 5] [] with pc := 0x200, bp := [0x200], lastBp := some 0x200 })
      = some (5, 0x202) := by decide +kernel
/-- T209, P6a: the word 0000 that cleared memory holds. -/
theorem test_illegal : seen (fun t => (t.sched, t.pc, t.results)) (step (withEvents [.host .step] State.reset)) =
    some (.halted .illegal, 0x202, [.steppedTo 0x202]) := by decide +kernel
/-- S6. -/
theorem test_bpSet_rounds : seen State.bp (hostOp (.bpSet 0x201) { State.reset with romMax := 0x203 }) = some [0x200] := by
  decide
theorem test_bpSet_rejects : seen (fun t => (t.bp, t.results)) (hostOp (.bpSet 0x204) { State.reset with romMax := 0x203 }) =
    some ([], [.rejected (.outOfRange 0x204)]) := by decide
/-- T202, T203. -/
theorem test_bpRemove :
    seen State.bp (hostOp (.bpRemove 0x201) { State.reset with romMax := 0x203, bp := [0x200] }) = some [] := by decide
theorem test_bpRemove_rejects :
    seen (fun t => (t.bp, t.results)) (hostOp (.bpRemove 0x202) { State.reset with romMax := 0x203, bp := [0x200] }) =
    some ([0x200], [.rejected (.notFound 0x202)]) := by decide
/-- T198 to T200. -/
theorem test_romMax : [0, 1, 3584].map romMaxOf = [0x200, 0x200, 0xFFF] := by decide
/-- S10: loaded, PC and ROMMAX. -/
theorem test_loadROM : seen (fun t => (t.mem, t.pc, t.romMax)) (hostOp (.loadROM [0x60, 5, 0x70, 3]) State.reset) =
    some ([(0x200, 0x60), (0x201, 5), (0x202, 0x70), (0x203, 3)], 0x200, 0x203) := by decide
/-- T208. -/
theorem test_reset_keeps_control : seen (fun t => (t.getV 3, t.dt, t.romMax, t.sched, t.bp))
    (hostOp (.reset 2) { regs [(3, 7)] with dt := 9, sched := .running, bp := [0x200] }) =
    some (0, 0, 0x201, .running, [0x200]) := by decide +kernel
/-- T207: `stop` leaves a halted machine halted. -/
theorem test_stop_halted : seen State.sched (hostOp .stop { State.reset with sched := .halted .illegal }) =
    some (.halted .illegal) := by decide
/-- S7. -/
theorem test_step_busy : seen (fun t => (t.pc, t.results)) (hostOp .step { State.reset with sched := .running }) =
    some (0x200, [.stepBusy]) := by decide

/-! ### Witnesses: states and operands that meet the hypotheses of the statements -/

/-- A machine that meets the invariant and is not the one after power-on: a program, a breakpoint, a call under way. -/
def busy : State :=
  { State.reset with
    mem := Memory.putAll [] 0x200 [0x22, 0x04, 0x12, 0x02, 0x00, 0xEE]
    romMax := 0x205, bp := [0x202], sp := 1, stack := (Vector.replicate 16 0).set 0 0x202
    sched := .running, faults := [.keyrange] }

theorem busy_inv : busy.Inv where
  memory := Memory.wf_putAll (m := []) Memory.wf_nil (.inr (by decide))
  depth := by decide
  counter := by decide
  returns := by
    intro w h
    simp only [busy, Vector.toList_set] at h
    rcases List.mem_or_eq_of_mem_set h with h | h
    · simp at h; rw [h]; decide
    · rw [h]; decide
  breakpoints := by decide
  marker := fun _ h => (nomatch h)
  bounds := by decide
  record := ⟨fun _ h => (nomatch h), by decide⟩

theorem witness_DecodeOfEncodeIsIdentity :
    Instr.wellFormed true (.seReg 15 15 0) = true ∧ Instr.wellFormed false (.seReg 15 15 15) = true ∧
    Instr.WellFormed (.sneReg 0 15 1) := by decide
theorem witness_EncodeOfDecodeIsIdentity :
    decodeWord true 0x9FF0 = .ok (.sneReg 15 15 0) ∧ decodeWord false 0x9FFF = .ok (.sneReg 15 15 15) := by decide
theorem witness_IllegalWordsExactly :
    decodesTo 0x00EE .ret ∧ decodeWord Config.strict59 0x00EF = .error .illegalClass0 ∧
    decodeWord Config.strict59 0x800F = .error .illegalClass8 ∧ decodeWord Config.strict59 0xE0A2 = .error .illegalClassE ∧
    decodeWord Config.strict59 0xF066 = .error .illegalClassF := by unfold decodesTo; decide
theorem witness_PowerOnValues :
    State.reset.mem.get 0x04F = 0 ∧ some (State.reset.mem.get 0x050) = Config.font[0]? ∧
    some (State.reset.mem.get 0x09F) = Config.font[79]? ∧ State.reset.mem.get 0x0A0 = 0 ∧ State.reset.mem.get 0xFFF = 0 := by
  decide
theorem witness_StepKeepsInvariant :
    busy.Inv ∧ seen (fun t => (t.pc, t.sp, t.stack[1])) (step busy) = some (0x204, 2, 0x202) := ⟨busy_inv, by decide +kernel⟩
theorem witness_LogsAreNeverRead :
    busy ≠ { busy with faults := [], out := [.clear], trace := [.pc], results := [.stepBusy], rate := 7 } ∧
    busy.withoutLogs = { busy with faults := [], out := [.clear], trace := [.pc], results := [.stepBusy], rate := 7 }.withoutLogs :=
  ⟨fun h => absurd (congrArg State.out h) (by decide), rfl⟩
theorem witness_RecordsOnlyGrow : ∃ t, step busy = .next t := ⟨_, rfl⟩

/-- At the last address of a whole word, with a cycle tick due and with `step()` due. -/
theorem witness_StepRunsDecodedInstruction_running :
    let s := withEvents [.cycleTick] { regsI 0 0xFFE [0x61, 0x2A] [] with pc := 0xFFE, sched := .running }
    s.pc.toNat ≤ 0xFFE ∧ ¬ (s.pc.toNat ∈ s.bp ∧ s.lastBp ≠ some s.pc) ∧ decodesTo (wordAt s s.pc.toNat) (.ldImm 1 0x2A) ∧
    s.nextInput = some .cycleTick ∧ s.sched = .running := by unfold decodesTo; decide
theorem witness_StepRunsDecodedInstruction_step :
    let s := withEvents [.host .step] { regsI 0 0x200 [0x61, 0x2A] [] with pc := 0x200, bp := [0x200], lastBp := some 0x200 }
    s.pc.toNat ≤ 0xFFE ∧ ¬ (s.pc.toNat ∈ s.bp ∧ s.lastBp ≠ some s.pc) ∧ decodesTo (wordAt s s.pc.toNat) (.ldImm 1 0x2A) ∧
    s.nextInput = some (.host .step) ∧ s.sched ≠ .running ∧
    ∃ t, exec (.ldImm 1 0x2A) (readyToExecute { s with inputs := s.inputs.tail }) = .next t :=
  ⟨by decide, by decide, by unfold decodesTo; decide, by decide, by decide, _, rfl⟩
theorem witness_OverflowHalts : 0xFFF < ({ State.reset with pc := 0x1000 } : State).pc.toNat := by decide
theorem witness_BreakpointHalts :
    let s := { State.reset with pc := 0xFFE, bp := [0xFFE], lastBp := some 0x200 }
    s.pc.toNat ≤ 0xFFF ∧ s.pc.toNat ∈ s.bp ∧ s.lastBp ≠ some s.pc := by decide
/-- T196: a breakpoint on a jump to itself. -/
theorem witness_BreakpointIsOneShot :
    let s := { regsI 0 0x200 [0x12, 0x00] [] with pc := 0x200, bp := [0x200] }
    s.pc.toNat ≤ 0xFFE ∧ s.pc.toNat ∈ s.bp ∧ s.lastBp ≠ some s.pc ∧ decodesTo (wordAt s s.pc.toNat) (.jp 0x200) ∧
    cycle s = .next s.breakHere ∧ seen State.pc (cycle s.breakHere) = some s.pc :=
  ⟨by decide, by decide, by decide, by unfold decodesTo; decide, rfl, by decide +kernel⟩
theorem witness_FetchAtLastByteFaults :
    let s := { State.reset with pc := 0xFFF }
    s.pc.toNat = 0xFFF ∧ ¬ (s.pc.toNat ∈ s.bp ∧ s.lastBp ≠ some s.pc) := by decide
theorem witness_IllegalWordHalts :
    State.reset.pc.toNat ≤ 0xFFE ∧ ¬ (State.reset.pc.toNat ∈ State.reset.bp ∧ State.reset.lastBp ≠ some State.reset.pc) ∧
    ∀ i, ¬ decodesTo (wordAt State.reset State.reset.pc.toNat) i :=
  ⟨by decide, by decide, fun _ h => nomatch (show Except.error Reject.illegalClass0 = .ok _ from h)⟩
/-- A transfer that faults, and an instruction that does not. -/
theorem witness_FaultsArePrecise :
    (∃ t, exec (.stRegs 15) { regs [] with i := 0xFF1 } = .next t) ∧ ∃ t, exec (.ldI 5) (regs []) = .next t :=
  ⟨⟨_, rfl⟩, ⟨_, rfl⟩⟩
/-- An instruction that raises no fault; and one that can, where it does not and where it does. -/
theorem witness_ProgramCannotReachControl :
    (∃ t, exec (.ldI 5) (regs []) = .next t) ∧ (∀ nnn, Instr.ldI 5 ≠ .call nnn) ∧ Instr.ldI 5 ≠ .ret ∧
    faultOf (.ldRegs 0) = some .memrange ∧ (∃ t, exec (.ldRegs 0) (regs []) = .next t ∧ t.sched = (regs []).sched) ∧
    ∃ t, exec (.ldRegs 0) { regs [] with i := 0x1000 } = .next t ∧ t.sched = .halted .memrange :=
  ⟨⟨_, rfl⟩, fun _ h => (nomatch h), by decide, rfl, ⟨_, rfl, rfl⟩, _, rfl, rfl⟩

theorem witness_CallPushesAndJumps :
    (regs []).sp.toNat < 16 ∧ ({ regs [] with sp := 15 } : State).sp.toNat < 16 ∧
    16 ≤ ({ regs [] with sp := 16 } : State).sp.toNat ∧ 16 ≤ ({ regs [] with sp := 255 } : State).sp.toNat := by decide
theorem witness_RetPopsIntoPc :
    (∀ b ∈ [1, 16], 0 < ({ regs [] with sp := b } : State).sp.toNat ∧ ({ regs [] with sp := b } : State).sp.toNat ≤ 16) ∧
    (∀ b ∈ [0, 17, 255], ({ regs [] with sp := b } : State).sp.toNat = 0 ∨ 16 < ({ regs [] with sp := b } : State).sp.toNat)
    := by decide
theorem witness_RetUndoesCall :
    ({ regs [] with sp := 15 } : State).sp.toNat < 16 ∧ (14 : Fin 16).val < ({ regs [] with sp := 15 } : State).sp.toNat := by
  decide
theorem witness_RandomIsMasked : ∃ t, exec (.rnd 15 0) (regs [(15, 7)]) = .next t := ⟨_, rfl⟩

theorem witness_BcdStoresDigits :
    ({ regs [] with i := 0xFFD } : State).i.toNat + 2 ≤ 0xFFF ∧ 0xFFF < ({ regs [] with i := 0xFFE } : State).i.toNat + 2 ∧
    (0xFFC < ({ regs [] with i := 0xFFD } : State).i.toNat ∨ ({ regs [] with i := 0xFFD } : State).i.toNat + 2 < 0xFFC) := by
  decide
/-- The last address for one register and for sixteen, the first that faults, and both sides of X. -/
theorem witness_BlockStore :
    ({ regs [] with i := 0xFFF } : State).i.toNat + (0 : Nibble).toNat ≤ 0xFFF ∧
    ({ regs [] with i := 0xFF0 } : State).i.toNat + (15 : Nibble).toNat ≤ 0xFFF ∧
    0xFFF < ({ regs [] with i := 0xFF1 } : State).i.toNat + (15 : Nibble).toNat ∧
    (3 : Nibble).toNat ≤ (3 : Nibble).toNat ∧ 0xFF0 + (15 : Nibble).toNat < 0x1000 := by decide
theorem witness_BlockLoad :
    ({ regs [] with i := 0xFFF } : State).i.toNat + (0 : Nibble).toNat ≤ 0xFFF ∧
    0xFFF < ({ regs [] with i := 0xFFF } : State).i.toNat + (1 : Nibble).toNat ∧
    (3 : Nibble).toNat ≤ (3 : Nibble).toNat ∧ (3 : Nibble).toNat < (4 : Nibble).toNat := by decide
theorem witness_BlockLoadUndoesBlockStore :
    ({ regs [(0, 5)] with i := 0xFF0 } : State).i.toNat + (15 : Nibble).toNat ≤ 0xFFF ∧
    ∃ t, exec (.stRegs 15) { regs [(0, 5)] with i := 0xFF0 } = .next t := ⟨by decide, _, rfl⟩
/-- T125: an FX55 that overwrites the whole word after it, which the next cycle then executes. -/
theorem witness_StoredWordIsFetched :
    let s := { regs [(0, 0x12), (1, 0)] with i := 0x202 }
    s.pc.toNat ≤ 0xFFE ∧ s.i.toNat + (1 : Nibble).toNat ≤ 0xFFF ∧ exec (.stRegs 1) s = .next (s.storeBytes 0x202 [0x12, 0]) ∧
    decodesTo (wordOf (afterStore s (registersTo s 1) 0x202) (afterStore s (registersTo s 1) 0x203)) (.jp 0x200) ∧
    ¬ ((s.storeBytes 0x202 [0x12, 0]).pc.toNat ∈ (s.storeBytes 0x202 [0x12, 0]).bp ∧
      (s.storeBytes 0x202 [0x12, 0]).lastBp ≠ some (s.storeBytes 0x202 [0x12, 0]).pc) :=
  ⟨by decide, by decide, rfl, by unfold decodesTo; decide, by decide⟩
/-- The last word and the last three bytes: the first digit of an FX33 falls on the low byte of the word at 0xFFC; and an FX55
whose last byte falls on the high byte of the word at 0xFFE. -/
theorem witness_StoredWordIsFetched_edges :
    let s := { regs [(0, 0xE0), (2, 255)] with i := 0xFFD, pc := 0xFFC, mem := [(0xFFC, 0x61)] }
    let s' := { s with pc := 0xFFE }
    s.pc.toNat ≤ 0xFFE ∧ s.i.toNat + 2 ≤ 0xFFF ∧
    decodesTo (wordOf (afterStore s (digitsOf s 2) 0xFFC) (afterStore s (digitsOf s 2) 0xFFD)) (.ldImm 1 2) ∧
    s'.pc.toNat ≤ 0xFFE ∧ s'.i.toNat + (1 : Nibble).toNat ≤ 0xFFF ∧ s'.i.toNat + (2 : Nibble).toNat ≤ 0xFFF ∧
    ∀ i, ¬ decodesTo (wordOf (afterStore s' (registersTo s' 1) 0xFFE) (afterStore s' (registersTo s' 1) 0xFFF)) i :=
  ⟨by decide, by decide, by unfold decodesTo; decide, by decide, by decide, by decide,
    fun _ h => nomatch (show Except.error Reject.illegalClass0 = .ok _ from h)⟩

/-- No row with I past memory (T145), one row at the last byte (T148), two there (T149). -/
theorem witness_DrawXorsSprite_ranges :
    (0 : Nibble).toNat = 0 ∧ ({ regs [] with i := 0xFFF } : State).i.toNat + (1 : Nibble).toNat - 1 ≤ 0xFFF ∧
    (2 : Nibble).toNat ≠ 0 ∧ 0xFFF < ({ regs [] with i := 0xFFF } : State).i.toNat + (2 : Nibble).toNat - 1 := by decide
/-- T147: a covered cell that is 1; and with the screen clear none is. -/
theorem witness_DrawXorsSprite_collision :
    (∃ cx cy, ((regsI 0x300 0x300 [0xC0] []).toggle 1 0).cell cx cy = true ∧
      covers ((regsI 0x300 0x300 [0xC0] []).toggle 1 0) 0 1 1 cx cy) ∧
    ∀ cx cy, (regsI 0x300 0x300 [0xC0] []).cell cx cy = true → ¬ covers (regsI 0x300 0x300 [0xC0] []) 0 1 1 cx cy :=
  ⟨⟨1, 0, by decide, 0, by decide, 1, by decide, by decide, by decide, by decide⟩, fun cx cy h => by
    have : (regsI 0x300 0x300 [0xC0] []).cell cx cy = false := by simp [State.cell, regsI, regs, State.reset]
    rw [this] at h; cases h⟩
/-- A covered cell that is 0; and with every cell 1 each covered one is 1. -/
theorem witness_DrawTwiceRestores :
    (0 : Nibble) ≠ 15 ∧ (1 : Nibble) ≠ 15 ∧ (regsI 0x300 0x300 [0xC0] []).i.toNat + (1 : Nibble).toNat - 1 ≤ 0xFFF ∧
    (∃ cx cy, covers (regsI 0x300 0x300 [0xC0] []) 0 1 1 cx cy ∧ (regsI 0x300 0x300 [0xC0] []).cell cx cy = false) ∧
    ∀ cx cy, covers { regsI 0x300 0x300 [0xC0] [] with fb := filled true } 0 1 1 cx cy →
      ({ regsI 0x300 0x300 [0xC0] [] with fb := filled true } : State).cell cx cy = true :=
  ⟨by decide, by decide, by decide, ⟨0, 0, ⟨0, by decide, 0, by decide, by decide, by decide, by decide⟩, by decide⟩,
    fun cx cy _ => by simp [State.cell, filled]⟩
theorem witness_SecondDrawAlwaysCollides :
    (0 : Nibble) ≠ 15 ∧ (1 : Nibble) ≠ 15 ∧ (regsI 0x300 0x300 [0xC0] []).i.toNat + (1 : Nibble).toNat - 1 ≤ 0xFFF ∧
    (∃ cx cy, covers (regsI 0x300 0x300 [0xC0] []) 0 1 1 cx cy) ∧
    ∃ t u, exec (.drw 0 1 1) (regsI 0x300 0x300 [0xC0] []) = .next t ∧ exec (.drw 0 1 1) t = .next u :=
  ⟨by decide, by decide, by decide, ⟨0, 0, 0, by decide, 0, by decide, by decide, by decide, by decide⟩, _, _, rfl, rfl⟩

theorem witness_KeySkips :
    ((regs [(1, 15)]).getV 1).toNat < 16 ∧ 15 < ((regs [(1, 16)]).getV 1).toNat ∧ 15 < ((regs [(1, 255)]).getV 1).toNat := by
  decide
/-- The lowest key and the highest; and no key. -/
theorem witness_KeyWait :
    (((regs []).setKey 0 true).key[0] = true ∧ ∀ j : Fin 16, j.val < 0 → ((regs []).setKey 0 true).key[j.val] = false) ∧
    (((regs []).setKey 15 true).key[15] = true ∧ ∀ j : Fin 16, j.val < 15 → ((regs []).setKey 15 true).key[j.val] = false) ∧
    ∀ k : Fin 16, (regs []).key[k.val] = false := by decide
theorem witness_TimerTick :
    (withEvents [.timerTick] { State.reset with sched := .running }).sched = .running ∧
    (withEvents [.timerTick] State.reset).sched ≠ .running ∧
    (withEvents [.timerTick] State.reset).inputs = .timerTick :: [] := by decide
/-- T175. -/
theorem witness_TicksCountDown :
    let s := withEvents (List.replicate 3 .timerTick) { State.reset with sched := .running, st := 3, dt := 9 }
    s.sched = .running ∧ s.inputs = List.replicate 3 .timerTick ∧ s.st.toNat = 3 ∧ 0 < 3 := by decide

/-- T201, T200, and the bytes on either side of a ROM of two. -/
theorem witness_LoadRom :
    3584 < (List.replicate 3585 (0 : Byte)).length ∧ (List.replicate 3584 (0 : Byte)).length ≤ 3584 ∧
    1 < [0x12, (0 : Byte)].length ∧ (0x1FF < 0x200 ∨ 0x200 + [0x12, (0 : Byte)].length ≤ 0x1FF) ∧
    (0x202 < 0x200 ∨ 0x200 + [0x12, (0 : Byte)].length ≤ 0x202) := by
  rw [List.length_replicate, List.length_replicate]; decide
theorem witness_HostReset : 3584 ≤ 3584 := Nat.le_refl _
theorem witness_RunStopChangeSpeed :
    (0 : Rat) < 60 ∧ State.reset.sched ≠ .running ∧ ({ State.reset with sched := .halted .illegal } : State).sched ≠ .running ∧
    ({ State.reset with sched := .running } : State).sched = .running := by decide
theorem witness_HostStep :
    ({ State.reset with sched := .running } : State).sched = .running ∧ State.reset.sched ≠ .running := by decide
/-- Either side of both bounds; an even and an odd address of a breakpoint that is there; one that is not. -/
theorem witness_BreakpointOperations :
    let s : State := { State.reset with romMax := 0x203, bp := [0x200] }
    ((0x204 : Int) > s.romMax ∨ (0x204 : Int) < 0x200) ∧ ((0x1FF : Int) > s.romMax ∨ (0x1FF : Int) < 0x200) ∧
    ((0x200 : Int) ≤ 0x201 ∧ (0x201 : Int) ≤ s.romMax ∧ ∃ a ∈ s.bp, (a : Int) = 0x201 - 0x201 % 2) ∧
    ((0x200 : Int) ≤ 0x203 ∧ (0x203 : Int) ≤ s.romMax ∧ ∀ a ∈ s.bp, (a : Int) ≠ 0x203 - 0x203 % 2) := by decide
theorem witness_MemoryAccessorReads : (0xFFF : Nat) ≤ 0xFFF := Nat.le_refl _
/-- Each duty of the host at the edge where it is broken. -/
theorem witness_RefusedExactlyOnBrokenDuty :
    (withEvents [.host (.run 60)] { State.reset with sched := .running }).nextInput = some (.host (.run 60)) ∧
    (withEvents [.host (.changeSpeed 0)] State.reset).nextInput = some (.host (.changeSpeed 0)) ∧ ¬ (0 : Rat) < 0 ∧
    (withEvents [.host (.setKeyDown 16 true)] State.reset).nextInput = some (.host (.setKeyDown 16 true)) ∧ 15 < 16 ∧
    (withEvents [.host (.reset 3585)] State.reset).nextInput = some (.host (.reset 3585)) ∧ 3584 < 3585 ∧
    (withEvents [.host (.peek 0x1000)] State.reset).nextInput = some (.host (.peek 0x1000)) ∧ 0xFFF < 0x1000 := by decide
theorem witness_SchedulerTransitions :
    State.reset.inputs = [] ∧ State.reset.sched ≠ .running ∧ State.reset.nextInput = none ∧
    seen State.sched (step (withEvents [.host .step] State.reset)) = some (.halted .illegal) ∧
    seen State.sched (step (withEvents [.host (.run 60)] State.reset)) = some .running ∧
    seen State.sched (step (withEvents [.host .stop] { State.reset with sched := .running })) = some .idle ∧
    seen State.sched (step (withEvents [.cycleTick] { State.reset with sched := .running, pc := 0x1000 })) =
      some (.halted .overflow) ∧
    seen State.sched (step (withEvents [.timerTick] { State.reset with sched := .running })) = some .running ∧
    seen State.sched (step (withEvents [.host (.setKeyDown 15 true)] State.reset)) = some .idle := by
  decide +kernel
/-- T24, and T25 at the edge. -/
theorem witness_JumpsWritePc :
    (∃ t, exec (.jpV0 0xFFF) (regs [(0, 0xFF)]) = .next t ∧ 0xFFF < t.pc.toNat) ∧
    ∃ t, exec (.jpV0 0xFFF) (regs [(0, 1)]) = .next t ∧ 0xFFF < t.pc.toNat :=
  ⟨⟨_, rfl, by decide⟩, ⟨_, rfl, by decide⟩⟩

/-! ### The end of a run (R283) -/

/-- ROM 12 00 (T196): a jump to itself at 0x200. -/
def looping : State := { regsI 0 0x200 [0x12, 0x00] [] with pc := 0x200, dt := 1 }

theorem looping_ends : looping.atSelfJump := ⟨rfl, rfl, by decide⟩

/-- No event, and each of the four, the cycle and the timer of a running machine; with a breakpoint there that has been taken. -/
theorem witness_SelfJumpIsAnEnd :
    looping.atSelfJump ∧ (withEvents [.cycleTick] { looping with sched := .running }).atSelfJump ∧
    ¬ (looping.pc.toNat ∈ looping.bp ∧ looping.lastBp ≠ some looping.pc) ∧
    (∃ t, step (withEvents [.cycleTick] { looping with sched := .running }) = .next t) ∧
    (∃ t, step (withEvents [.timerTick] { looping with sched := .running }) = .next t) ∧
    (∃ t, step (withEvents [.host .step] { looping with bp := [0x200], lastBp := some 0x200 }) = .next t) ∧
    (∃ t, step (withEvents [.host (.setKeyDown 15 true)] looping) = .next t) ∧ looping.nextInput = none :=
  ⟨looping_ends, ⟨rfl, rfl, by decide⟩, by decide, ⟨_, rfl⟩, ⟨_, rfl⟩, ⟨_, rfl⟩, ⟨_, rfl⟩, rfl⟩
/-- The first `step()` of T196, and the same halt of a running machine. -/
theorem witness_StoppedAtIsTheHalt :
    State.stoppedAt (withEvents [.host .step] { looping with bp := [0x200] })
      ({ looping with bp := [0x200] }.breakHere.answer (.steppedTo 0x200)) 0x200 ∧
    State.stoppedAt (withEvents [.cycleTick] { looping with bp := [0x200], sched := .running })
      { looping with bp := [0x200], sched := .running }.breakHere 0x200 := by
  exact ⟨⟨rfl, rfl, rfl, rfl, rfl⟩, ⟨rfl, rfl, rfl, rfl, rfl⟩⟩
/-- A machine halted by a fault on a jump to itself, and a step of it. -/
theorem witness_FaultedRunNeverEnds :
    let s := withEvents [.host .step] { looping with sched := .halted .illegal, faults := [.illegal] }
    s.sched = .halted .illegal ∧ HaltReason.illegal.isFault = true ∧ s.faults ≠ [] ∧ ∃ t, step s = .next t :=
  ⟨rfl, rfl, by decide, _, rfl⟩
/-- T193 to T194: after the halt at 0x202 a `step()` leaves PC at 0x204 in Halted(breakpoint), with no halt there. -/
theorem test_step_after_halt_is_no_stop (t : State) :
    ¬ State.stoppedAt (withEvents [.host .step] { regsI 0 0x202 [0x61, 0x02] [] with
      bp := [0x202], lastBp := some 0x202, sched := .halted .breakpoint }) t 0x204 := by
  rintro ⟨h, ho, -⟩
  injection h with h
  rw [← h] at ho
  exact absurd ho (by decide)
/-- `loadROM` in Halted(breakpoint) leaves PC at 0x200, with no halt there. -/
theorem test_loadROM_after_halt_is_no_stop (t : State) :
    ¬ State.stoppedAt (withEvents [.host (.loadROM [0x12, 0x00])] { looping with sched := .halted .breakpoint }) t 0x200 := by
  rintro ⟨h, ho, -⟩
  injection h with h
  rw [← h] at ho
  exact absurd ho (by decide)

end Sys2Proof.Tests
end

section
/-! The fields of a word as numbers, and the word of two bytes (30_encoding.md R42, R61, R71): with these, a statement
about the bit-splitting is linear arithmetic with quotients and remainders. -/

namespace Sys2Proof

/-! ### Each field of a word as a quotient and a remainder (R61) -/

theorem toNat_extract_eq_div_mod {a : Nat} (w : BitVec a) (k n : Nat) :
    (w.extractLsb' k n).toNat = w.toNat / 2 ^ k % 2 ^ n := by
  rw [BitVec.extractLsb'_toNat, Nat.shiftRight_eq_div_pow]

@[simp] theorem fieldsOf_cls_toNat (w : Word) : (fieldsOf w).cls.toNat = w.toNat / 4096 := by
  have hdiv : (fieldsOf w).cls.toNat = w.toNat / 4096 % 16 := toNat_extract_eq_div_mod w 12 4
  omega

@[simp] theorem fieldsOf_x_toNat (w : Word) : (fieldsOf w).x.toNat = w.toNat / 256 % 16 :=
  toNat_extract_eq_div_mod w 8 4

@[simp] theorem fieldsOf_y_toNat (w : Word) : (fieldsOf w).y.toNat = w.toNat / 16 % 16 :=
  toNat_extract_eq_div_mod w 4 4

@[simp] theorem fieldsOf_n_toNat (w : Word) : (fieldsOf w).n.toNat = w.toNat % 16 :=
  BitVec.extractLsb'_toNat ..

@[simp] theorem fieldsOf_nn_toNat (w : Word) : (fieldsOf w).nn.toNat = w.toNat % 256 :=
  BitVec.extractLsb'_toNat ..

@[simp] theorem fieldsOf_nnn_toNat (w : Word) : (fieldsOf w).nnn.toNat = w.toNat % 4096 :=
  BitVec.extractLsb'_toNat ..

/-! ### The word of two bytes, and the word of its four nibbles (R42, R71) -/

@[simp] theorem wordOf_toNat (hi lo : Byte) : (wordOf hi lo).toNat = hi.toNat * 256 + lo.toNat := by
  rw [wordOf, BitVec.toNat_append, ← Nat.shiftLeft_add_eq_or_of_lt lo.isLt, Nat.shiftLeft_eq]

/-- The low byte of a word is its field NN (R61, R42). -/
@[simp] theorem fieldsOf_wordOf_nn (hi lo : Byte) : (fieldsOf (wordOf hi lo)).nn = lo :=
  BitVec.extractLsb'_append_eq_right

theorem toNat_eq_sum_of_nibbles (w : Word) :
    w.toNat = (fieldsOf w).cls.toNat * 4096 + (fieldsOf w).x.toNat * 256 +
      (fieldsOf w).y.toNat * 16 + (fieldsOf w).n.toNat := by
  simp only [fieldsOf_cls_toNat, fieldsOf_x_toNat, fieldsOf_y_toNat, fieldsOf_n_toNat]
  omega

/-- Settles O5: each field is a quotient and a remainder of `hi * 256 + lo`, and a byte is below 256. -/
theorem fieldsOfTwoBytes : Obligations.FieldsOfTwoBytes := by
  intro hi lo
  have hlo : lo.toNat < 256 := lo.isLt
  refine ⟨?cls, ?x, ?y, ?n, fieldsOf_wordOf_nn hi lo, ?nnn, wordOf_toNat hi lo, toNat_eq_sum_of_nibbles _⟩
  case cls => rw [fieldsOf_cls_toNat, wordOf_toNat]; omega
  case x => rw [fieldsOf_x_toNat, wordOf_toNat]; omega
  case y => rw [fieldsOf_y_toNat, wordOf_toNat]; omega
  case n => rw [fieldsOf_n_toNat, wordOf_toNat]; omega
  case nnn => rw [fieldsOf_nnn_toNat, wordOf_toNat]; omega

end Sys2Proof
end

section
/-! The overflow check of the cycle (40_cycle.md R81), and a halt by a fault as the statements write it (R232, R239). -/

namespace Sys2Proof.Machine

open Sys2Proof.Statements

/-- A halt whose reason is a fault puts that reason on record, and `faulted` is its next state. -/
theorem State.halt_eq_faulted (s : State) {r : HaltReason} (hr : r.isFault = true) : s.halt r = faulted s r := by
  rw [State.halt, if_pos hr, faulted]

theorem raise_eq_faulted (s : State) {r : HaltReason} (hr : r.isFault = true) : raise r s = .next (faulted s r) :=
  congrArg Host.Outcome.next (s.halt_eq_faulted hr)

@[simp] theorem faulted_pc (s : State) (r : HaltReason) : (faulted s r).pc = s.pc := rfl

theorem State.overflowed_iff (s : State) : s.overflowed = true ↔ 0xFFF < s.pc.toNat := decide_eq_true_iff

/-- The overflow check comes first, so no breakpoint and no fetch is looked at (R81). -/
theorem cycle_of_pc_gt {s : State} (hpc : 0xFFF < s.pc.toNat) : cycle s = .next (faulted s .overflow) :=
  calc cycle s
    _ = raise .overflow s := if_pos (s.overflowed_iff.mpr hpc)
    _ = .next (faulted s .overflow) := raise_eq_faulted s rfl

/-- Settles O12: the halt keeps PC, so the next cycle meets the same overflow check. -/
theorem overflowHalts : Obligations.OverflowHalts := by
  intro s hpc
  have hpc' : 0xFFF < (faulted s .overflow).pc.toNat := by rwa [faulted_pc]
  exact ⟨cycle_of_pc_gt hpc, cycle_of_pc_gt hpc'⟩

end Sys2Proof.Machine
end

section
/-! What the control transfers share (40_cycle.md R85, R89; 30_encoding.md R62, R64): a word decodes by its fields, and the
writes of PC as the statements put them, in natural numbers. -/

namespace Sys2Proof.Machine

open Sys2Proof.Statements

/-- Only the fields of a word are dispatched on (R64). -/
theorem decodesTo_of_select {w : Word} {f : Fields} {i : Instr} (hf : fieldsOf w = f)
    (hi : select Config.strict59 f = .ok i) : decodesTo w i := by
  rw [decodesTo, decodeWord, hf, hi]

theorem addrOf_eq_ofNat (nnn : Addr12) : addrOf nnn = BitVec.ofNat 16 nnn.toNat :=
  (BitVec.ofNat_toNat 16 nnn).symm

theorem wordOfByte_eq_ofNat (b : Byte) : wordOfByte b = BitVec.ofNat 16 b.toNat :=
  (BitVec.ofNat_toNat 16 b).symm

theorem add_two_eq_ofNat (w : Word) : w + 2 = BitVec.ofNat 16 (w.toNat + 2) := by
  rw [BitVec.ofNat_add, BitVec.ofNat_toNat, BitVec.setWidth_eq]
  rfl

theorem setPc_ofNat (s : State) (n : Nat) : s.setPc (BitVec.ofNat 16 n) = wrotePc s n := rfl

theorem skipIf_eq_skipped (c : Bool) (s : State) : skipIf c s = .next (skipped c s) := by
  rw [skipIf_eq, add_two_eq_ofNat, setPc_ofNat, skipped]

end Sys2Proof.Machine
end

section
/-! The two jumps (41_flow.md R100, R102). -/

namespace Sys2Proof.Machine

open Sys2Proof.Statements

theorem exec_jp (nnn : Addr12) (s : State) : exec (.jp nnn) s = .next (wrotePc s nnn.toNat) :=
  calc exec (.jp nnn) s
    _ = .next (s.setPc (addrOf nnn)) := rfl
    _ = .next (wrotePc s nnn.toNat) := by rw [addrOf_eq_ofNat, setPc_ofNat]

/-- The 16-bit sum of NNN and V0 is the sum of their numbers (R102). -/
theorem exec_jpV0 (nnn : Addr12) (s : State) :
    exec (.jpV0 nnn) s = .next (wrotePc s (nnn.toNat + (s.getV 0).toNat)) :=
  calc exec (.jpV0 nnn) s
    _ = .next (s.setPc (addrOf nnn + wordOfByte (s.getV 0))) := rfl
    _ = .next (wrotePc s (nnn.toNat + (s.getV 0).toNat)) := by
      rw [addrOf_eq_ofNat, wordOfByte_eq_ofNat, ← BitVec.ofNat_add, setPc_ofNat]

/-- Settles O20: each word is dispatched on its class alone, and a PC above 0xFFF meets the overflow check of R81. -/
theorem jumpsWritePc : Obligations.JumpsWritePc := by
  intro s nnn
  have hjp : decodesTo (ofAddr 0x1 nnn) (.jp nnn) := decodesTo_of_select (fieldsOf_ofAddr 0x1 nnn) rfl
  have hjpV0 : decodesTo (ofAddr 0xB nnn) (.jpV0 nnn) := decodesTo_of_select (fieldsOf_ofAddr 0xB nnn) rfl
  exact ⟨hjp, exec_jp nnn s, hjpV0, exec_jpV0 nnn s, fun _ _ hpc => cycle_of_pc_gt hpc⟩

end Sys2Proof.Machine
end

section
/-! The skips on an immediate (41_flow.md R104, R105). -/

namespace Sys2Proof.Machine

open Sys2Proof.Statements

theorem beq_eq_decide_toNat_eq (a b : Byte) : (a == b) = decide (a.toNat = b.toNat) :=
  decide_eq_decide.mpr BitVec.toNat_inj.symm

theorem bne_eq_decide_toNat_ne (a b : Byte) : (a != b) = decide (a.toNat ≠ b.toNat) := by
  rw [bne, beq_eq_decide_toNat_eq, decide_not]

theorem exec_seImm (x : Nibble) (nn : Byte) (s : State) :
    exec (.seImm x nn) s = .next (skipped (decide ((s.getV x).toNat = nn.toNat)) s) :=
  calc exec (.seImm x nn) s
    _ = skipIf (s.getV x == nn) s := rfl
    _ = .next (skipped (decide ((s.getV x).toNat = nn.toNat)) s) := by
      rw [beq_eq_decide_toNat_eq, skipIf_eq_skipped]

theorem exec_sneImm (x : Nibble) (nn : Byte) (s : State) :
    exec (.sneImm x nn) s = .next (skipped (decide ((s.getV x).toNat ≠ nn.toNat)) s) :=
  calc exec (.sneImm x nn) s
    _ = skipIf (s.getV x != nn) s := rfl
    _ = .next (skipped (decide ((s.getV x).toNat ≠ nn.toNat)) s) := by
      rw [bne_eq_decide_toNat_ne, skipIf_eq_skipped]

/-- Settles O24: each word is dispatched on its class alone, and two bytes are equal exactly where their numbers are. -/
theorem immediateSkips : Obligations.ImmediateSkips := by
  intro s x nn
  have hse : decodesTo (ofXnn 0x3 x nn) (.seImm x nn) := decodesTo_of_select (fieldsOf_ofXnn 0x3 x nn) rfl
  have hsne : decodesTo (ofXnn 0x4 x nn) (.sneImm x nn) := decodesTo_of_select (fieldsOf_ofXnn 0x4 x nn) rfl
  exact ⟨hse, exec_seImm x nn s, hsne, exec_sneImm x nn s⟩

end Sys2Proof.Machine
end

section
/-! Byte arithmetic as the statements put it, in natural numbers, and the write of a register (42_alu.md R120 to R129;
10_state.md R10). -/

namespace Sys2Proof.Machine

open Sys2Proof.Statements

theorem setV_eq_wroteV (s : State) (r : Nibble) (b : Byte) : s.setV r b = wroteV s r b := rfl

theorem byte_add_eq_ofNat (a b : Byte) : a + b = BitVec.ofNat 8 ((a.toNat + b.toNat) % 256) :=
  BitVec.eq_of_toNat_eq (by rw [BitVec.toNat_add, BitVec.toNat_ofNat, Nat.mod_mod])

/-- The 256 is added first, so that the difference of the numbers is not cut off at 0. -/
theorem byte_sub_eq_ofNat (a b : Byte) : a - b = BitVec.ofNat 8 ((a.toNat + 256 - b.toNat) % 256) := by
  have hb : b.toNat < 256 := b.isLt
  apply BitVec.eq_of_toNat_eq
  rw [BitVec.toNat_sub, BitVec.toNat_ofNat]
  omega

theorem byte_or_eq_ofNat (a b : Byte) : a ||| b = BitVec.ofNat 8 (a.toNat ||| b.toNat) := by
  simp only [BitVec.ofNat_or, BitVec.ofNat_toNat, BitVec.setWidth_eq]

theorem byte_and_eq_ofNat (a b : Byte) : a &&& b = BitVec.ofNat 8 (a.toNat &&& b.toNat) := by
  simp only [BitVec.ofNat_and, BitVec.ofNat_toNat, BitVec.setWidth_eq]

theorem byte_xor_eq_ofNat (a b : Byte) : a ^^^ b = BitVec.ofNat 8 (a.toNat ^^^ b.toNat) := by
  simp only [BitVec.ofNat_xor, BitVec.ofNat_toNat, BitVec.setWidth_eq]

/-- Class 8 is dispatched on its low nibble (R64, R66). -/
theorem decodesTo_of_select8 {x y n : Nibble} {i : Instr}
    (hi : select8 ⟨0x8, x, y, n, y ++ n, x ++ y ++ n⟩ = .ok i) : decodesTo (ofNibbles 0x8 x y n) i :=
  decodesTo_of_select (fieldsOf_ofNibbles 0x8 x y n) hi

end Sys2Proof.Machine
end

section
/-! The instructions that write VX and no flag (42_alu.md R120 to R125). -/

namespace Sys2Proof.Machine

open Sys2Proof.Statements

theorem exec_ldImm (x : Nibble) (nn : Byte) (s : State) : exec (.ldImm x nn) s = .next (wroteV s x nn) :=
  calc exec (.ldImm x nn) s
    _ = .next (s.setV x nn) := rfl
    _ = .next (wroteV s x nn) := by rw [setV_eq_wroteV]

theorem exec_addImm (x : Nibble) (nn : Byte) (s : State) :
    exec (.addImm x nn) s = .next (wroteV s x (BitVec.ofNat 8 (((s.getV x).toNat + nn.toNat) % 256))) :=
  calc exec (.addImm x nn) s
    _ = .next (s.setV x (s.getV x + nn)) := rfl
    _ = _ := by rw [setV_eq_wroteV, byte_add_eq_ofNat]

theorem exec_ldReg (x y : Nibble) (s : State) : exec (.ldReg x y) s = .next (wroteV s x (s.getV y)) :=
  calc exec (.ldReg x y) s
    _ = .next (s.setV x (s.getV y)) := rfl
    _ = .next (wroteV s x (s.getV y)) := by rw [setV_eq_wroteV]

theorem exec_orReg (x y : Nibble) (s : State) :
    exec (.orReg x y) s = .next (wroteV s x (BitVec.ofNat 8 ((s.getV x).toNat ||| (s.getV y).toNat))) :=
  calc exec (.orReg x y) s
    _ = .next (s.setV x (s.getV x ||| s.getV y)) := rfl
    _ = _ := by rw [setV_eq_wroteV, byte_or_eq_ofNat]

theorem exec_andReg (x y : Nibble) (s : State) :
    exec (.andReg x y) s = .next (wroteV s x (BitVec.ofNat 8 ((s.getV x).toNat &&& (s.getV y).toNat))) :=
  calc exec (.andReg x y) s
    _ = .next (s.setV x (s.getV x &&& s.getV y)) := rfl
    _ = _ := by rw [setV_eq_wroteV, byte_and_eq_ofNat]

theorem exec_xorReg (x y : Nibble) (s : State) :
    exec (.xorReg x y) s = .next (wroteV s x (BitVec.ofNat 8 ((s.getV x).toNat ^^^ (s.getV y).toNat))) :=
  calc exec (.xorReg x y) s
    _ = .next (s.setV x (s.getV x ^^^ s.getV y)) := rfl
    _ = _ := by rw [setV_eq_wroteV, byte_xor_eq_ofNat]

/-- Settles O27: each word is dispatched on its class alone, and the 8-bit sum is the sum of the numbers mod 256. -/
theorem immediateLoadAndAdd : Obligations.ImmediateLoadAndAdd := by
  intro s x nn
  have hld : decodesTo (ofXnn 0x6 x nn) (.ldImm x nn) := decodesTo_of_select (fieldsOf_ofXnn 0x6 x nn) rfl
  have hadd : decodesTo (ofXnn 0x7 x nn) (.addImm x nn) := decodesTo_of_select (fieldsOf_ofXnn 0x7 x nn) rfl
  exact ⟨hld, exec_ldImm x nn s, hadd, exec_addImm x nn s⟩

/-- Settles O28: an operation on the bits of two bytes is that operation on the bits of their numbers. -/
theorem registerMoveAndLogic : Obligations.RegisterMoveAndLogic := by
  intro s x y
  have hld : decodesTo (ofNibbles 0x8 x y 0x0) (.ldReg x y) := decodesTo_of_select8 rfl
  have hor : decodesTo (ofNibbles 0x8 x y 0x1) (.orReg x y) := decodesTo_of_select8 rfl
  have hand : decodesTo (ofNibbles 0x8 x y 0x2) (.andReg x y) := decodesTo_of_select8 rfl
  have hxor : decodesTo (ofNibbles 0x8 x y 0x3) (.xorReg x y) := decodesTo_of_select8 rfl
  exact ⟨hld, exec_ldReg x y s, hor, exec_orReg x y s, hand, exec_andReg x y s, hxor, exec_xorReg x y s⟩

end Sys2Proof.Machine
end

section
/-! The sum and the two differences of registers: VX first, then VF (42_alu.md R126, R127, R129). -/

namespace Sys2Proof.Machine

open Sys2Proof.Statements

theorem exec_addReg (x y : Nibble) (s : State) :
    exec (.addReg x y) s = .next
      (wroteV (wroteV s x (BitVec.ofNat 8 (((s.getV x).toNat + (s.getV y).toNat) % 256))) 15
        (if (s.getV x).toNat + (s.getV y).toNat > 255 then 1 else 0)) :=
  calc exec (.addReg x y) s
    _ = .next ((s.setV x (s.getV x + s.getV y)).setV vf (carryFlag (s.getV x) (s.getV y))) := rfl
    _ = _ := by rw [setV_eq_wroteV, setV_eq_wroteV, byte_add_eq_ofNat, carryFlag, vf]

theorem exec_subReg (x y : Nibble) (s : State) :
    exec (.subReg x y) s = .next
      (wroteV (wroteV s x (BitVec.ofNat 8 (((s.getV x).toNat + 256 - (s.getV y).toNat) % 256))) 15
        (if (s.getV x).toNat ≥ (s.getV y).toNat then 1 else 0)) :=
  calc exec (.subReg x y) s
    _ = .next ((s.setV x (s.getV x - s.getV y)).setV vf (noBorrowFlag (s.getV x) (s.getV y))) := rfl
    _ = _ := by rw [setV_eq_wroteV, setV_eq_wroteV, byte_sub_eq_ofNat, noBorrowFlag, vf]

theorem exec_subnReg (x y : Nibble) (s : State) :
    exec (.subnReg x y) s = .next
      (wroteV (wroteV s x (BitVec.ofNat 8 (((s.getV y).toNat + 256 - (s.getV x).toNat) % 256))) 15
        (if (s.getV y).toNat ≥ (s.getV x).toNat then 1 else 0)) :=
  calc exec (.subnReg x y) s
    _ = .next ((s.setV x (s.getV y - s.getV x)).setV vf (noBorrowFlag (s.getV y) (s.getV x))) := rfl
    _ = _ := by rw [setV_eq_wroteV, setV_eq_wroteV, byte_sub_eq_ofNat, noBorrowFlag, vf]

/-- Settles O29: both operands are read before VX is written, so the carry is that of the values before (R88). -/
theorem addSetsCarry : Obligations.AddSetsCarry :=
  fun s x y => ⟨decodesTo_of_select8 rfl, exec_addReg x y s⟩

/-- Settles O30: a difference is taken mod 256, and SUBN is SUB with the operands exchanged. -/
theorem subtractSetsNoBorrow : Obligations.SubtractSetsNoBorrow :=
  fun s x y => ⟨decodesTo_of_select8 rfl, exec_subReg x y s, decodesTo_of_select8 rfl, exec_subnReg x y s⟩

end Sys2Proof.Machine
end

section
/-! The writers of I (43_index_memory.md R150 to R152), and the dispatch of class F (30_encoding.md R64, R66). -/

namespace Sys2Proof.Machine

open Sys2Proof.Statements

/-- Class F is dispatched on its low byte (R64, R66). -/
theorem decodesTo_of_selectF {x : Nibble} {nn : Byte} {i : Instr}
    (hi : selectF ⟨0xF, x, nn.extractLsb' 4 4, nn.extractLsb' 0 4, nn, x ++ nn⟩ = .ok i) :
    decodesTo (ofXnn 0xF x nn) i :=
  decodesTo_of_select (fieldsOf_ofXnn 0xF x nn) hi

theorem setI_ofNat (s : State) (n : Nat) : s.setI (BitVec.ofNat 16 n) = wroteI s n := rfl

theorem word_add_eq_ofNat (a b : Word) : a + b = BitVec.ofNat 16 ((a.toNat + b.toNat) % 65536) :=
  BitVec.eq_of_toNat_eq (by rw [BitVec.toNat_add, BitVec.toNat_ofNat, Nat.mod_mod])

theorem wordOfByte_toNat (b : Byte) : (wordOfByte b).toNat = b.toNat :=
  BitVec.toNat_setWidth_of_le (by decide)

theorem exec_ldI (nnn : Addr12) (s : State) : exec (.ldI nnn) s = .next (wroteI s nnn.toNat) :=
  calc exec (.ldI nnn) s
    _ = .next (s.setI (addrOf nnn)) := rfl
    _ = .next (wroteI s nnn.toNat) := by rw [addrOf_eq_ofNat, setI_ofNat]

/-- The 16-bit sum of I and VX is the sum of their numbers mod 65536 (R151). -/
theorem exec_addI (x : Nibble) (s : State) :
    exec (.addI x) s = .next (wroteI s ((s.i.toNat + (s.getV x).toNat) % 65536)) :=
  calc exec (.addI x) s
    _ = .next (s.setI (s.i + wordOfByte (s.getV x))) := rfl
    _ = _ := by rw [word_add_eq_ofNat, wordOfByte_toNat, setI_ofNat]

/-- The whole byte VX counts glyphs of five bytes from the start of the font (R152). -/
theorem exec_ldF (x : Nibble) (s : State) :
    exec (.ldF x) s = .next (wroteI s (0x050 + 5 * (s.getV x).toNat)) :=
  calc exec (.ldF x) s
    _ = .next (s.setI (glyphAddr (s.getV x))) := rfl
    _ = _ := by rw [glyphAddr, fontBase, setI_ofNat]

/-- Settles O34: class A is dispatched on its class alone and class F on NN, and each of the three is one write of I,
whatever the address. -/
theorem indexWrites : Obligations.IndexWrites := by
  intro s nnn x
  have hldI : decodesTo (ofAddr 0xA nnn) (.ldI nnn) := decodesTo_of_select (fieldsOf_ofAddr 0xA nnn) rfl
  have haddI : decodesTo (ofXnn 0xF x 0x1E) (.addI x) := decodesTo_of_selectF rfl
  have hldF : decodesTo (ofXnn 0xF x 0x29) (.ldF x) := decodesTo_of_selectF rfl
  exact ⟨hldI, exec_ldI nnn s, haddI, exec_addI x s, hldF, exec_ldF x s⟩

end Sys2Proof.Machine
end

section
/-! Clearing the framebuffer (44_display.md R170). -/

namespace Sys2Proof.Machine

open Sys2Proof.Statements

@[simp] theorem State.clearFb_cell (s : State) (x : Fin 64) (y : Fin 32) : s.clearFb.cell x y = false := by
  simp only [State.cell, State.clearFb_fb, Vector.getElem_replicate]

@[simp] theorem State.emit_cell (s : State) (e : OutEvent) (x : Fin 64) (y : Fin 32) :
    (s.emit e).cell x y = s.cell x y := rfl

theorem exec_cls (s : State) : exec .cls s = .next (s.clearFb.emit .clear) := rfl

/-- Settles O40: clearing writes the framebuffer alone, and the event is appended to the output alone. -/
theorem clearScreen : Obligations.ClearScreen := by
  intro s
  have hdecode : decodesTo 0x00E0 .cls := decodesTo_of_select rfl rfl
  have hcells : ∀ x y, (s.clearFb.emit .clear).cell x y = false := fun x y => by
    rw [State.emit_cell, State.clearFb_cell]
  exact ⟨hdecode, s.clearFb.emit .clear, exec_cls s, hcells, rfl⟩

end Sys2Proof.Machine
end

section
/-! Waiting for a key (45_keypad_timer.md R182): the lowest key down, and the retry. -/

namespace Sys2Proof.Machine

open Sys2Proof.Statements

theorem lowestKey_eq_some_iff (s : State) (k : Fin 16) :
    lowestKey s = some k.val ↔
      s.key[k.val] = true ∧ ∀ j : Fin 16, j.val < k.val → s.key[j.val] = false := by
  simp only [lowestKey, List.findIdx?_eq_some_iff_getElem, Vector.getElem_toList, id_eq, Bool.not_eq_true]
  constructor
  · rintro ⟨_, hdown, hbelow⟩
    exact ⟨hdown, fun j hj => hbelow j.val hj⟩
  · rintro ⟨hdown, hbelow⟩
    have hlen : k.val < s.key.toList.length := by rw [Vector.length_toList]; exact k.isLt
    exact ⟨hlen, hdown, fun j hj => hbelow ⟨j, hj.trans k.isLt⟩ hj⟩

theorem lowestKey_eq_none_iff (s : State) :
    lowestKey s = none ↔ ∀ k : Fin 16, s.key[k.val] = false := by
  simp only [lowestKey, List.findIdx?_eq_none_iff, Vector.mem_toList_iff, Vector.mem_iff_getElem, id_eq]
  constructor
  · exact fun h k => h _ ⟨k.val, k.isLt, rfl⟩
  · rintro h _ ⟨k, hk, rfl⟩
    exact h ⟨k, hk⟩

/-- The 65536 is added first, so that the difference of the numbers is not cut off at 0. -/
theorem sub_two_eq_ofNat (w : Word) : w - 2 = BitVec.ofNat 16 (w.toNat + 65536 - 2) := by
  have hw : w.toNat < 65536 := w.isLt
  apply BitVec.eq_of_toNat_eq
  rw [BitVec.toNat_sub, BitVec.toNat_ofNat]
  change (65536 - 2 + w.toNat) % 65536 = (w.toNat + 65536 - 2) % 65536
  omega

theorem exec_ldVxK_of_lowestKey_some {s : State} {k : Nat} (x : Nibble) (hk : lowestKey s = some k) :
    exec (.ldVxK x) s = .next (wroteV s x (BitVec.ofNat 8 k)) :=
  calc exec (.ldVxK x) s
    _ = execLdVxK x s := rfl
    _ = .next (s.setV x (BitVec.ofNat 8 k)) := by rw [execLdVxK, hk]
    _ = .next (wroteV s x (BitVec.ofNat 8 k)) := by rw [setV_eq_wroteV]

theorem exec_ldVxK_of_lowestKey_none {s : State} (x : Nibble) (hk : lowestKey s = none) :
    exec (.ldVxK x) s = .next (wrotePc s (s.pc.toNat + 65536 - 2)) :=
  calc exec (.ldVxK x) s
    _ = execLdVxK x s := rfl
    _ = .next (s.setPc (s.pc - 2)) := by rw [execLdVxK, hk]
    _ = .next (wrotePc s (s.pc.toNat + 65536 - 2)) := by rw [sub_two_eq_ofNat, setPc_ofNat]

/-- Settles O45: the search from key 0 up stops at the lowest key down, or finds none. -/
theorem keyWait : Obligations.KeyWait := by
  intro s x
  refine ⟨decodesTo_of_selectF rfl, ?down, ?none⟩
  case down =>
    intro k hdown hbelow
    exact exec_ldVxK_of_lowestKey_some x ((lowestKey_eq_some_iff s k).mpr ⟨hdown, hbelow⟩)
  case none =>
    intro hup
    exact exec_ldVxK_of_lowestKey_none x ((lowestKey_eq_none_iff s).mpr hup)

end Sys2Proof.Machine
end

section
/-! Moving a timer's value (45_keypad_timer.md R183 to R185). -/

namespace Sys2Proof.Machine

open Sys2Proof.Statements

theorem exec_ldVxDt (x : Nibble) (s : State) : exec (.ldVxDt x) s = .next (wroteV s x s.dt) :=
  calc exec (.ldVxDt x) s
    _ = .next (s.setV x s.dt) := rfl
    _ = .next (wroteV s x s.dt) := by rw [setV_eq_wroteV]

theorem exec_ldDtVx (x : Nibble) (s : State) :
    exec (.ldDtVx x) s = .next { s with dt := s.getV x, trace := s.trace ++ [.dt] } :=
  calc exec (.ldDtVx x) s
    _ = .next (s.setDt (s.getV x)) := rfl
    _ = _ := by rw [State.setDt]

theorem exec_ldStVx (x : Nibble) (s : State) :
    exec (.ldStVx x) s = .next { s with st := s.getV x, trace := s.trace ++ [.st] } :=
  calc exec (.ldStVx x) s
    _ = .next (s.setSt (s.getV x)) := rfl
    _ = _ := by rw [State.setSt]

/-- Settles O46: class F is dispatched on NN, and each of the three is one write, of VX or of a timer, with no event. -/
theorem timerMoves : Obligations.TimerMoves := by
  intro s x
  have hfromDt : decodesTo (ofXnn 0xF x 0x07) (.ldVxDt x) := decodesTo_of_selectF rfl
  have htoDt : decodesTo (ofXnn 0xF x 0x15) (.ldDtVx x) := decodesTo_of_selectF rfl
  have htoSt : decodesTo (ofXnn 0xF x 0x18) (.ldStVx x) := decodesTo_of_selectF rfl
  exact ⟨hfromDt, exec_ldVxDt x s, htoDt, exec_ldDtVx x s, htoSt, exec_ldStVx x s⟩

end Sys2Proof.Machine
end

section
/-! The keypad and the breakpoint set, as the host sees them (46_host_ops.md R207 to R211). -/

namespace Sys2Proof.Machine

/-- Settles O53: each key 0 to 15 is in range, so its flag is written. -/
theorem setKeyDown : Obligations.SetKeyDown := by
  intro s k isDown
  calc hostOp (.setKeyDown k.val isDown) s
    _ = hostSetKeyDown k.val isDown s := rfl
    _ = .next (s.setKey k isDown) := dif_pos k.isLt

theorem State.bpBounds_iff (s : State) (addr : Int) :
    s.bpBounds addr = true ↔ 0x200 ≤ addr ∧ addr ≤ (s.romMax : Int) :=
  decide_eq_true_iff

/-- On an address within the bounds, rounding on `Nat` is the spec's `addr - (addr mod 2)` on integers (R208). -/
theorem eq_evenFloor_iff {addr : Int} (h : 0 ≤ addr) (a : Nat) : a = evenFloor addr ↔ (a : Int) = addr - addr % 2 := by
  unfold evenFloor; omega

theorem hostBpSet_of_not_bpBounds {s : State} {addr : Int} (h : ¬ s.bpBounds addr = true) :
    hostBpSet addr s = .next (s.answer (.rejected (.outOfRange addr))) :=
  if_neg h

theorem hostBpSet_of_bpBounds {s : State} {addr : Int} (h : s.bpBounds addr = true) :
    hostBpSet addr s = .next (s.setBp (insertAddr s.bp (evenFloor addr))) :=
  if_pos h

theorem hostBpRemove_of_not_bpBounds {s : State} {addr : Int} (h : ¬ s.bpBounds addr = true) :
    hostBpRemove addr s = .next (s.answer (.rejected (.outOfRange addr))) :=
  if_neg h

theorem hostBpRemove_of_mem {s : State} {addr : Int} (h : s.bpBounds addr = true) (hmem : evenFloor addr ∈ s.bp) :
    hostBpRemove addr s = .next (s.setBp (s.bp.filter (fun a => a != evenFloor addr))) := by
  rw [hostBpRemove, if_pos h, if_pos (List.contains_iff_mem.2 hmem)]

theorem hostBpRemove_of_not_mem {s : State} {addr : Int} (h : s.bpBounds addr = true) (hmem : evenFloor addr ∉ s.bp) :
    hostBpRemove addr s = .next (s.answer (.rejected (.notFound addr))) := by
  rw [hostBpRemove, if_pos h, if_neg fun hc => hmem (List.contains_iff_mem.1 hc)]

/-- Settles O54: outside the bounds both operations answer a rejection; within them the address that goes in or out is the
even one at or below `addr`, and `remove` splits on whether that one is in the set. -/
theorem breakpointOperations : Obligations.BreakpointOperations := by
  intro s addr
  refine ⟨?outside, fun hlow hhigh => ?within, rfl, rfl⟩
  case outside =>
    intro hout
    have hbounds : ¬ s.bpBounds addr = true := by rw [State.bpBounds_iff]; omega
    exact ⟨hostBpSet_of_not_bpBounds hbounds, hostBpRemove_of_not_bpBounds hbounds⟩
  case within =>
    have hbounds : s.bpBounds addr = true := (s.bpBounds_iff addr).2 ⟨hlow, hhigh⟩
    have hround : ∀ a : Nat, a = evenFloor addr ↔ (a : Int) = addr - addr % 2 := eq_evenFloor_iff (by omega)
    refine ⟨⟨_, hostBpSet_of_bpBounds hbounds, fun a => ?inserted, rfl⟩, ?found, ?notFound⟩
    case inserted => rw [State.setBp_bp, mem_insertAddr, hround]
    case found =>
      rintro ⟨b, hb, heq⟩
      have hmem : evenFloor addr ∈ s.bp := (hround b).2 heq ▸ hb
      exact ⟨_, hostBpRemove_of_mem hbounds hmem, fun a => by simp [hround], rfl⟩
    case notFound =>
      intro hnone
      have hmem : evenFloor addr ∉ s.bp := fun hm => hnone _ hm ((hround _).1 rfl)
      exact hostBpRemove_of_not_mem hbounds hmem

end Sys2Proof.Machine
end

section
/-! Decoding an encoded word, and encoding a decoded one (30_encoding.md R61 to R67, R71): a word is dispatched on its
fields, and each of the three formats makes the word up again from the fields it has. -/

namespace Sys2Proof

open Sys2Proof.Statements

/-! ### The word from its fields, in each format (R62, R71) -/

theorem ofXnn_fieldsOf (w : Word) : ofXnn (fieldsOf w).cls (fieldsOf w).x (fieldsOf w).nn = w := by
  simp only [ofXnn, fieldsOf]
  ext i hi; grind

theorem ofAddr_fieldsOf (w : Word) : ofAddr (fieldsOf w).cls (fieldsOf w).nnn = w := by
  simp only [ofAddr, fieldsOf]
  ext i hi; grind

/-- The two bytes of a word in memory order are put together to that word (R42). -/
theorem wordOf_bytes (w : Word) : wordOf (w.extractLsb' 8 8) (w.extractLsb' 0 8) = w := by
  simp only [wordOf]
  ext i hi; grind

/-! ### Decode after encode -/

/-- With N = 0 or under the lenient reading, classes 5 and 9 are not refused (R67). -/
theorem selectXY_eq_ok {strict : Bool} {f : Fields} (i : Instr) (h : (!strict || f.n == 0) = true) :
    selectXY strict f i = .ok i := by
  cases strict <;> simp_all [selectXY]

/-- Each format hands the decoder the operands and the secondary key of the row it was encoded from (R65). -/
theorem decodeWord_encode (strict : Bool) (i : Instr) (h : i.wellFormed strict = true) :
    decodeWord strict (encode i) = .ok i := by
  cases i
  case seReg x y n =>
    exact (congrArg (select strict) (fieldsOf_ofNibbles 0x5 x y n)).trans (selectXY_eq_ok (.seReg x y n) h)
  case sneReg x y n =>
    exact (congrArg (select strict) (fieldsOf_ofNibbles 0x9 x y n)).trans (selectXY_eq_ok (.sneReg x y n) h)
  case cls | ret | jp | call | ldI | jpV0 =>
    exact (congrArg (select strict) (fieldsOf_ofAddr _ _)).trans rfl
  case ldReg | orReg | andReg | xorReg | addReg | subReg | shr | subnReg | shl | drw =>
    exact (congrArg (select strict) (fieldsOf_ofNibbles _ _ _ _)).trans rfl
  case seImm | sneImm | ldImm | addImm | rnd | skp | sknp | ldVxDt | ldVxK | ldDtVx | ldStVx | addI | ldF | ldB | stRegs
      | ldRegs =>
    exact (congrArg (select strict) (fieldsOf_ofXnn _ _ _)).trans rfl

/-- Settles O2: on words by `decodeWord_encode`, and on bytes because the two bytes of a word are put together to it. -/
theorem decodeOfEncodeIsIdentity : Obligations.DecodeOfEncodeIsIdentity := by
  refine ⟨decodeWord_encode, fun i rest h => ?_⟩
  calc decode (encodeBytes i ++ rest)
    _ = (decodeWord Config.strict59 (wordOf ((encode i).extractLsb' 8 8) ((encode i).extractLsb' 0 8))).map (·, rest) := rfl
    _ = .ok (i, rest) := by rw [wordOf_bytes, decodeWord_encode _ i h]; rfl

/-! ### Encode after decode -/

/-- `i` may be delivered for a word of the fields `f`: it is well formed, and the format of its row makes the word up of
them again. -/
structure Instr.IsOfFields (strict : Bool) (f : Fields) (i : Instr) : Prop where
  wellFormed : i.wellFormed strict = true
  encoding : encode i = ofAddr f.cls f.nnn ∨ encode i = ofXnn f.cls f.x f.nn ∨ encode i = ofNibbles f.cls f.x f.y f.n

theorem Instr.IsOfFields.encode_eq {strict : Bool} {i : Instr} {w : Word} (h : i.IsOfFields strict (fieldsOf w)) :
    encode i = w := by
  rcases h.encoding with h | h | h
  · exact h.trans (ofAddr_fieldsOf w)
  · exact h.trans (ofXnn_fieldsOf w)
  · exact h.trans (ofNibbles_fieldsOf w)

theorem nibble_eq_of_toNat {a : Nibble} {n : Nat} (h : a.toNat = n) : a = BitVec.ofNat 4 n := by
  rw [← h, BitVec.ofNat_toNat, BitVec.setWidth_eq]

section
variable {strict : Bool} {f : Fields} {i : Instr}

theorem isOfFields_of_select0 (hc : f.cls = 0x0) (h : select0 f = .ok i) : i.IsOfFields strict f := by
  unfold select0 at h
  split_ifs at h with hn hn <;> cases h <;> exact ⟨rfl, .inl (by rw [hc, hn]; rfl)⟩

theorem isOfFields_of_select8 (hc : f.cls = 0x8) (h : select8 f = .ok i) : i.IsOfFields strict f := by
  unfold select8 at h
  split at h
  case h_10 => cases h
  all_goals
    next hn => cases h; exact ⟨rfl, .inr (.inr (by rw [hc, nibble_eq_of_toNat hn]; rfl))⟩

theorem isOfFields_of_selectE (hc : f.cls = 0xE) (h : selectE f = .ok i) : i.IsOfFields strict f := by
  unfold selectE at h
  split_ifs at h with hn hn <;> cases h <;> exact ⟨rfl, .inr (.inl (by rw [hc, hn]; rfl))⟩

theorem isOfFields_of_selectF (hc : f.cls = 0xF) (h : selectF f = .ok i) : i.IsOfFields strict f := by
  unfold selectF at h
  split_ifs at h with hn hn hn hn hn hn hn hn hn <;> cases h <;> exact ⟨rfl, .inr (.inl (by rw [hc, hn]; rfl))⟩

/-- What classes 5 and 9 deliver has passed the check of N (R67). -/
theorem selectXY_ok {j : Instr} (h : selectXY strict f j = .ok i) : i = j ∧ (!strict || f.n == 0) = true := by
  unfold selectXY at h
  split_ifs at h with hn
  cases h
  exact ⟨rfl, by cases strict <;> simp_all⟩

/-- Class by class: the instruction is made of the fields its format has. -/
theorem isOfFields_of_select (h : select strict f = .ok i) : i.IsOfFields strict f := by
  unfold select at h
  split at h
  case h_1 hc => exact isOfFields_of_select0 (nibble_eq_of_toNat hc) h
  case h_9 hc => exact isOfFields_of_select8 (nibble_eq_of_toNat hc) h
  case h_15 hc => exact isOfFields_of_selectE (nibble_eq_of_toNat hc) h
  case h_16 =>
    have hc : f.cls.toNat = 0xF := by have := f.cls.isLt; grind
    exact isOfFields_of_selectF (nibble_eq_of_toNat hc) h
  case h_6 hc | h_10 hc =>
    obtain ⟨rfl, hn⟩ := selectXY_ok h
    exact ⟨hn, .inr (.inr (by rw [nibble_eq_of_toNat hc]; rfl))⟩
  case h_2 hc | h_3 hc | h_11 hc | h_12 hc =>
    cases h; exact ⟨rfl, .inl (by rw [nibble_eq_of_toNat hc]; rfl)⟩
  case h_4 hc | h_5 hc | h_7 hc | h_8 hc | h_13 hc =>
    cases h; exact ⟨rfl, .inr (.inl (by rw [nibble_eq_of_toNat hc]; rfl))⟩
  case h_14 hc =>
    cases h; exact ⟨rfl, .inr (.inr (by rw [nibble_eq_of_toNat hc]; rfl))⟩

end

/-- Settles O3: a decoded instruction is of the word's fields, and those make up the word. -/
theorem encodeOfDecodeIsIdentity : Obligations.EncodeOfDecodeIsIdentity := fun _ _ _ h =>
  have hi := isOfFields_of_select h
  ⟨hi.wellFormed, hi.encode_eq⟩

end Sys2Proof
end

section
/-! Which words are illegal (30_encoding.md R66): only classes 0, 8, E and F have a secondary key, and on this machine no
other class refuses a word (R67). -/

namespace Sys2Proof

open Sys2Proof.Statements Sys2Proof.Machine

/-! Each secondary key is compared as a number, as the table of R66 gives it. -/

section
variable {f : Fields}

theorem select0_never_ok_iff : (∀ i, select0 f ≠ .ok i) ↔ f.nnn.toNat ≠ 0x0E0 ∧ f.nnn.toNat ≠ 0x0EE := by
  have hnum : ∀ c : Addr12, f.nnn = c ↔ f.nnn.toNat = c.toNat := fun c => BitVec.toNat_inj.symm
  unfold select0
  split_ifs <;> simp_all

theorem select8_never_ok_iff :
    (∀ i, select8 f ≠ .ok i) ↔ f.n.toNat ∈ [0x8, 0x9, 0xA, 0xB, 0xC, 0xD, 0xF] := by
  have hn : f.n.toNat < 16 := nibble_lt f.n
  unfold select8
  split
  case h_10 => simp; grind
  all_goals simp_all

theorem selectE_never_ok_iff : (∀ i, selectE f ≠ .ok i) ↔ f.nn.toNat ≠ 0x9E ∧ f.nn.toNat ≠ 0xA1 := by
  have hnum : ∀ c : Byte, f.nn = c ↔ f.nn.toNat = c.toNat := fun c => BitVec.toNat_inj.symm
  unfold selectE
  split_ifs <;> simp_all

theorem selectF_never_ok_iff :
    (∀ i, selectF f ≠ .ok i) ↔ f.nn.toNat ∉ [0x07, 0x0A, 0x15, 0x18, 0x1E, 0x29, 0x33, 0x55, 0x65] := by
  have hnum : ∀ c : Byte, f.nn = c ↔ f.nn.toNat = c.toNat := fun c => BitVec.toNat_inj.symm
  unfold selectF
  split_ifs <;> simp_all

/-- The four classes with a secondary key are dispatched on it (R64). -/
theorem select_class0 {strict : Bool} (h : f.cls.toNat = 0x0) : select strict f = select0 f := by
  simp only [select, h]

theorem select_class8 {strict : Bool} (h : f.cls.toNat = 0x8) : select strict f = select8 f := by
  simp only [select, h]

theorem select_classE {strict : Bool} (h : f.cls.toNat = 0xE) : select strict f = selectE f := by
  simp only [select, h]

theorem select_classF {strict : Bool} (h : f.cls.toNat = 0xF) : select strict f = selectF f := by
  simp only [select, h]

/-- The other classes have a meaning for every word (R65, R67). -/
theorem select_ok_of_other_class (h0 : f.cls.toNat ≠ 0x0) (h8 : f.cls.toNat ≠ 0x8) (hE : f.cls.toNat ≠ 0xE)
    (hF : f.cls.toNat ≠ 0xF) : ∃ i, select Config.strict59 f = .ok i := by
  have hc : f.cls.toNat < 16 := nibble_lt f.cls
  unfold select
  split
  case h_1 | h_9 | h_15 => contradiction
  case h_16 => exact absurd (by grind) hF
  all_goals exact ⟨_, rfl⟩

end

/-- Settles O4: in each of the four classes the illegal words are those whose secondary key no row has; a word of another
class is legal. -/
theorem illegalWordsExactly : Obligations.IllegalWordsExactly := by
  intro w
  have hw : w.toNat / 4096 < 16 := by have := w.isLt; omega
  change (∀ i, select Config.strict59 (fieldsOf w) ≠ .ok i) ↔ _
  by_cases h0 : w.toNat / 4096 = 0x0
  · rw [select_class0 (by simpa using h0), select0_never_ok_iff]; simp [h0]
  by_cases h8 : w.toNat / 4096 = 0x8
  · rw [select_class8 (by simpa using h8), select8_never_ok_iff]; simp [h8]
  by_cases hE : w.toNat / 4096 = 0xE
  · rw [select_classE (by simpa using hE), selectE_never_ok_iff]; simp [hE]
  by_cases hF : w.toNat / 4096 = 0xF
  · rw [select_classF (by simpa using hF), selectF_never_ok_iff]; simp [hF]
  obtain ⟨i, hi⟩ := select_ok_of_other_class (f := fieldsOf w) (by simpa using h0) (by simpa using h8) (by simpa using hE)
    (by simpa using hF)
  have hlegal : ¬ ∀ i, select Config.strict59 (fieldsOf w) ≠ .ok i := fun h => h i hi
  simp only [hlegal, h0, h8, hE, hF, false_and, or_false]

/-- No word is refused for its low nibble on this machine (R67, D8). -/
theorem decodeWord_ne_strict59 (w : Word) : decodeWord Config.strict59 w ≠ .error .strict59 := by
  unfold decodeWord select
  split
  case h_1 => unfold select0; split_ifs <;> exact nofun
  case h_9 => unfold select8; split <;> exact nofun
  case h_15 => unfold selectE; split_ifs <;> exact nofun
  case h_16 => unfold selectF; split_ifs <;> exact nofun
  all_goals exact nofun

/-- Settles O1: each word is dispatched on the fields its digits give. -/
theorem writtenOutWordsDecode : Obligations.WrittenOutWordsDecode := by
  refine ⟨?_, ?_, ?_, ?_, ?_, ?_, ?_, ?_, ?_, ?_, ?_, ?_⟩ <;> exact decodesTo_of_select rfl rfl

end Sys2Proof
end

section
/-! The cycle in the statements' terms (40_cycle.md R80 to R88): what each of its checks asks of the state, and what the cycle
does where none of them stops it. -/

namespace Sys2Proof.Machine

open Sys2Proof.Statements

/-! ### The checks -/

theorem State.atBreakpoint_iff (s : State) : s.atBreakpoint = true ↔ s.pc.toNat ∈ s.bp :=
  List.contains_iff_mem

theorem State.breaks_iff (s : State) : s.breaks = true ↔ s.pc.toNat ∈ s.bp ∧ s.lastBp ≠ some s.pc := by
  rw [State.breaks, Bool.and_eq_true, State.atBreakpoint_iff, bne_iff_ne]

theorem State.breaks_eq_false_iff (s : State) :
    s.breaks = false ↔ ¬ (s.pc.toNat ∈ s.bp ∧ s.lastBp ≠ some s.pc) := by
  rw [← Bool.not_eq_true, State.breaks_iff]

theorem State.clearMarker_eq (s : State) :
    s.clearMarker = { s with lastBp := if s.pc.toNat ∈ s.bp then s.lastBp else none } := by
  by_cases h : s.pc.toNat ∈ s.bp
  · rw [State.clearMarker, if_pos ((s.atBreakpoint_iff).2 h), if_pos h]
  · rw [State.clearMarker, if_neg (mt (s.atBreakpoint_iff).1 h), if_neg h, State.setLastBp]

theorem State.clearMarker_advance (s : State) : s.clearMarker.advance = readyToExecute s := by
  rw [State.advance, add_two_eq_ofNat, setPc_ofNat, State.clearMarker_pc, State.clearMarker_eq, readyToExecute]

/-! ### What the cycle does, check by check -/

theorem cycle_of_breaks {s : State} (hpc : s.pc.toNat ≤ 0xFFF) (hbp : s.pc.toNat ∈ s.bp) (hlast : s.lastBp ≠ some s.pc) :
    cycle s = .next s.breakHere := by
  have hno : ¬ s.overflowed = true := by rw [State.overflowed_iff]; omega
  rw [cycle, if_neg hno, if_pos (s.breaks_iff.2 ⟨hbp, hlast⟩)]

/-- With no breakpoint to stop it, a cycle whose word exists runs that word, past it and with the marker cleared. -/
theorem cycle_of_word {s : State} (hpc : s.pc.toNat ≤ 0xFFE) (hbp : ¬ (s.pc.toNat ∈ s.bp ∧ s.lastBp ≠ some s.pc)) :
    cycle s = runWord (wordAt s s.pc.toNat) (readyToExecute s) := by
  have hbreaks := s.breaks_eq_false_iff.2 hbp
  rcases cycle_cases s with ⟨h, -⟩ | ⟨-, h, -⟩ | ⟨h, -⟩ | ⟨-, -, h⟩
  · omega
  · rw [hbreaks] at h; cases h
  · omega
  · rw [h, State.clearMarker_advance, wordAt]

theorem runWord_of_decodesTo {w : Word} {i : Instr} (h : decodesTo w i) (s : State) : runWord w s = exec i s := by
  rw [runWord, h]

theorem runWord_of_illegal {w : Word} (h : ∀ i, ¬ decodesTo w i) (s : State) :
    runWord w s = .next (faulted s .illegal) := by
  rcases runWord_cases w s with ⟨i, hi, -⟩ | ⟨hstrict, -⟩ | ⟨_, -, -, hrun⟩
  · exact absurd hi (h i)
  · exact absurd hstrict (decodeWord_ne_strict59 w)
  · rw [hrun, s.halt_eq_faulted rfl]

/-- Where no breakpoint stops the cycle and the word at PC is an instruction, the cycle is its execution. -/
theorem cycle_of_decodesTo {s : State} {i : Instr} (hpc : s.pc.toNat ≤ 0xFFE)
    (hbp : ¬ (s.pc.toNat ∈ s.bp ∧ s.lastBp ≠ some s.pc)) (hi : decodesTo (wordAt s s.pc.toNat) i) :
    cycle s = exec i (readyToExecute s) := by
  rw [cycle_of_word hpc hbp, runWord_of_decodesTo hi]

/-! ### The statements of one cycle -/

/-- Settles O13: the breakpoint check comes before the fetch, and its halt is no fault. -/
theorem breakpointHalts : Obligations.BreakpointHalts := by
  intro s hpc hbp hlast
  rw [cycle_of_breaks hpc hbp hlast, State.breakHere, State.halt]
  simp [HaltReason.isFault, State.setLastBp]

/-- Settles O15: the second byte of a word at 0xFFF does not exist. -/
theorem fetchAtLastByteFaults : Obligations.FetchAtLastByteFaults := by
  intro s hpc hbp
  have hbreaks := s.breaks_eq_false_iff.2 hbp
  rcases cycle_cases s with ⟨h, -⟩ | ⟨-, h, -⟩ | ⟨-, -, h⟩ | ⟨h, -⟩
  · omega
  · rw [hbreaks] at h; cases h
  · rw [h, State.halt_eq_faulted _ rfl, State.clearMarker_eq]
  · omega

/-- Settles O16: the word is fetched and PC advanced before it is found to be no instruction. -/
theorem illegalWordHalts : Obligations.IllegalWordHalts := by
  intro s hpc hbp hillegal
  rw [cycle_of_word hpc hbp, runWord_of_illegal hillegal]

end Sys2Proof.Machine
end

section
/-! All that an instruction can do, said once (60_exceptions.md R236, R237, R242): raise its one fault, or write registers,
PC, the return stack or memory.  What every instruction keeps is then read off six cases, not off 34. -/

namespace Sys2Proof.Machine

open Sys2Proof.Statements

/-! ### Writes that reach neither memory nor control -/

/-- `t` comes from `s` by writes of V, I, the timers, the framebuffer and the count of random bytes, with their notices and
events; none of the events is a halt. -/
structure State.Quiet (s t : State) : Prop where
  frame : t = { s with
    v := t.v, i := t.i, dt := t.dt, st := t.st, fb := t.fb, rndCount := t.rndCount, out := t.out, trace := t.trace }
  events : ∃ es, t.out = s.out ++ es ∧ ∀ r, .halt r ∉ es
  notices : s.trace <+: t.trace

namespace State.Quiet

/-- Writes with no event. -/
theorem of_silent {s t : State}
    (hframe : t = { s with
      v := t.v, i := t.i, dt := t.dt, st := t.st, fb := t.fb, rndCount := t.rndCount, out := t.out, trace := t.trace })
    (hout : t.out = s.out) (htrace : s.trace <+: t.trace) : s.Quiet t :=
  ⟨hframe, ⟨[], by rw [hout, List.append_nil], fun _ => List.not_mem_nil⟩, htrace⟩

theorem refl (s : State) : s.Quiet s := of_silent rfl rfl (List.prefix_refl _)

theorem trans {s t u : State} (hst : s.Quiet t) (htu : t.Quiet u) : s.Quiet u := by
  obtain ⟨es, hes, hnone⟩ := hst.events
  obtain ⟨fs, hfs, hnone'⟩ := htu.events
  refine ⟨?frame, ⟨es ++ fs, by rw [hfs, hes, List.append_assoc], fun r hr => ?none⟩, hst.notices.trans htu.notices⟩
  case frame => rw [htu.frame, hst.frame]
  case none => exact (List.mem_append.1 hr).elim (hnone r) (hnone' r)

variable {s t : State}

theorem setV (h : s.Quiet t) (r : Nibble) (b : Byte) : s.Quiet (t.setV r b) :=
  h.trans (of_silent rfl rfl (List.prefix_append ..))

theorem setI (h : s.Quiet t) (w : Word) : s.Quiet (t.setI w) := h.trans (of_silent rfl rfl (List.prefix_append ..))

theorem setDt (h : s.Quiet t) (b : Byte) : s.Quiet (t.setDt b) := h.trans (of_silent rfl rfl (List.prefix_append ..))

theorem setSt (h : s.Quiet t) (b : Byte) : s.Quiet (t.setSt b) := h.trans (of_silent rfl rfl (List.prefix_append ..))

theorem drawn (h : s.Quiet t) : s.Quiet t.drawn := h.trans (of_silent rfl rfl (List.prefix_refl _))

theorem clearFb (h : s.Quiet t) : s.Quiet t.clearFb := h.trans (of_silent rfl rfl (List.prefix_refl _))

theorem toggle (h : s.Quiet t) (x : Fin 64) (y : Fin 32) : s.Quiet (t.toggle x y) :=
  h.trans (of_silent rfl rfl (List.prefix_refl _))

theorem emit (h : s.Quiet t) {e : OutEvent} (he : ∀ r, .halt r ≠ e) : s.Quiet (t.emit e) :=
  h.trans ⟨rfl, ⟨[e], rfl, fun r hr => he r (List.mem_singleton.1 hr)⟩, List.prefix_refl _⟩

theorem collide (h : s.Quiet t) (x : Fin 64) (y : Fin 32) : s.Quiet (t.collide x y) := by
  unfold State.collide
  split
  · exact h.setV _ _
  · exact h

theorem plot (h : s.Quiet t) (p : Fin 64 × Fin 32) : s.Quiet (t.plot p) :=
  ((h.collide _ _).toggle _ _).emit nofun

theorem plotAll (h : s.Quiet t) (ps : List (Fin 64 × Fin 32)) : s.Quiet (ps.foldl State.plot t) := by
  induction ps generalizing t with
  | nil => exact h
  | cons p ps ih => exact ih (h.plot p)

theorem setVs (h : s.Quiet t) (k : Nat) (bs : List Byte) : s.Quiet (t.setVs k bs) := by
  induction bs generalizing t k with
  | nil => exact h
  | cons b bs ih => exact ih (h.setV _ b) (k + 1)

theorem tickDelay (h : s.Quiet t) : s.Quiet t.tickDelay := by
  unfold State.tickDelay
  split
  · exact h
  · exact h.setDt _

theorem tickSound (h : s.Quiet t) : s.Quiet t.tickSound := by
  unfold State.tickSound
  split
  · exact h
  · exact (h.setSt _).emit (by intro r; split <;> exact nofun)

theorem timerTick (h : s.Quiet t) : s.Quiet (timerTick t) := h.tickDelay.tickSound

end State.Quiet

/-! ### The six things an instruction can do -/

/-- Where a jump, a skip or a retry that is no CALL or RET may leave PC, from a PC that a cycle can give (R91). -/
def JumpBound (s : State) (w : Word) : Prop := 2 ≤ s.pc.toNat → s.pc.toNat ≤ 0x1000 → w.toNat ≤ 0x10FE

/-- What executing `i` from `s` can lead to. -/
inductive Executed (i : Instr) (s : State) : State → Prop
  /-- the one fault of the instruction, with nothing else written (R236, R237) -/
  | fault (r : HaltReason) (hr : faultOf i = some r) : Executed i s (faulted s r)
  /-- writes of registers, timers and cells -/
  | quiet (t : State) (ht : s.Quiet t) : Executed i s t
  /-- one write of PC (R89, R100, R102, R182) -/
  | jump (w : Word) (hw : JumpBound s w) : Executed i s (s.setPc w)
  /-- the push of PC and a jump (R103) -/
  | call (nnn : Addr12) (hi : i = .call nnn) (h : s.sp.toNat < 16) :
    Executed i s (((s.setStack ⟨s.sp.toNat, h⟩ s.pc).setSp (s.sp + 1)).setPc (addrOf nnn))
  /-- the pop into PC (R101) -/
  | ret (hi : i = .ret) (h : 0 < s.sp.toNat ∧ s.sp.toNat ≤ 16) :
    Executed i s ((s.setSp (s.sp - 1)).setPc (s.stack[s.sp.toNat - 1]'(by omega)))
  /-- a store at I of bytes that all exist (R153, R154) -/
  | store (bs : List Byte) (h : bs = [] ∨ s.i.toNat + bs.length ≤ memSize) : Executed i s (s.storeBytes s.i.toNat bs)

/-- An outcome is a next state to which executing `i` can lead. -/
def LeadsTo (i : Instr) (s : State) (o : Result) : Prop := ∃ t, o = .next t ∧ Executed i s t

section
variable {i : Instr} {s : State}

theorem leadsTo_raise {r : HaltReason} (hr : faultOf i = some r) (hfault : r.isFault = true) :
    LeadsTo i s (raise r s) :=
  ⟨_, raise_eq_faulted s hfault, .fault r hr⟩

theorem leadsTo_quiet {t : State} (ht : s.Quiet t) : LeadsTo i s (.next t) := ⟨t, rfl, .quiet t ht⟩

theorem leadsTo_setPc {w : Word} (hw : JumpBound s w) : LeadsTo i s (.next (s.setPc w)) := ⟨_, rfl, .jump w hw⟩

theorem leadsTo_skipIf (c : Bool) : LeadsTo i s (skipIf c s) := by
  rw [skipIf_eq]
  cases c
  · exact leadsTo_quiet (.refl s)
  · refine leadsTo_setPc fun _ hpc => ?_
    rw [add_two_eq_ofNat, BitVec.toNat_ofNat]
    omega

theorem leadsTo_withKey {x : Nibble} {f : Bool → Result} (hi : faultOf i = some .keyrange)
    (hf : ∀ down, LeadsTo i s (f down)) : LeadsTo i s (withKey x s f) := by
  rcases withKey_cases x s f with ⟨-, h⟩ | ⟨_, h⟩ <;> rw [h]
  · exact leadsTo_raise hi rfl
  · exact hf _

theorem leadsTo_storeAtI {bs : List Byte} (hi : faultOf i = some .memrange) : LeadsTo i s (storeAtI bs s) := by
  rcases storeAtI_cases bs s with ⟨h, he⟩ | ⟨-, he⟩ <;> rw [he]
  · exact ⟨_, rfl, .store bs h⟩
  · exact leadsTo_raise hi rfl

end

theorem addrOf_toNat (nnn : Addr12) : (addrOf nnn).toNat = nnn.toNat := BitVec.toNat_setWidth_of_le (by decide)

/-- Every instruction, from every state, does one of the six things. -/
theorem exec_leadsTo (i : Instr) (s : State) : LeadsTo i s (exec i s) := by
  cases i
  case cls => exact leadsTo_quiet ((State.Quiet.refl s).clearFb.emit nofun)
  case ldImm | addImm | ldReg | orReg | andReg | xorReg | ldVxDt => exact leadsTo_quiet ((State.Quiet.refl s).setV _ _)
  case addReg | subReg | subnReg | shr | shl => exact leadsTo_quiet (((State.Quiet.refl s).setV _ _).setV _ _)
  case rnd => exact leadsTo_quiet ((State.Quiet.refl s).drawn.setV _ _)
  case ldI | addI | ldF => exact leadsTo_quiet ((State.Quiet.refl s).setI _)
  case ldDtVx => exact leadsTo_quiet ((State.Quiet.refl s).setDt _)
  case ldStVx => exact leadsTo_quiet ((State.Quiet.refl s).setSt _)
  case seImm | sneImm | seReg | sneReg => exact leadsTo_skipIf _
  case skp x =>
    change LeadsTo _ s (execSkp x s)
    exact leadsTo_withKey rfl fun _ => leadsTo_skipIf _
  case sknp x =>
    change LeadsTo _ s (execSknp x s)
    exact leadsTo_withKey rfl fun _ => leadsTo_skipIf _
  case ldB | stRegs => exact leadsTo_storeAtI rfl
  case jp nnn =>
    refine leadsTo_setPc fun _ _ => ?_
    have := nnn.isLt
    rw [addrOf_toNat]; omega
  case jpV0 nnn =>
    refine leadsTo_setPc fun _ _ => ?_
    have := nnn.isLt
    have := (s.getV 0).isLt
    rw [BitVec.toNat_add, addrOf_toNat, wordOfByte_toNat]; omega
  case ldVxK x =>
    change LeadsTo _ s (execLdVxK x s)
    unfold execLdVxK
    split
    · exact leadsTo_quiet ((State.Quiet.refl s).setV _ _)
    · refine leadsTo_setPc fun _ _ => ?_
      rw [sub_two_eq_ofNat, BitVec.toNat_ofNat]; omega
  case call nnn =>
    change LeadsTo _ s (execCall nnn s)
    unfold execCall
    split
    · next h => exact ⟨_, rfl, .call nnn rfl h⟩
    · exact leadsTo_raise rfl rfl
  case ret =>
    change LeadsTo _ s (execRet s)
    unfold execRet
    split
    · next h => exact ⟨_, rfl, .ret rfl h⟩
    · exact leadsTo_raise rfl rfl
  case drw x y n =>
    change LeadsTo _ s (execDrw x y n s)
    unfold execDrw
    split
    · exact leadsTo_quiet (((State.Quiet.refl s).setV _ _).plotAll _)
    · exact leadsTo_raise rfl rfl
  case ldRegs x =>
    change LeadsTo _ s (execLdRegs x s)
    unfold execLdRegs
    split
    · exact leadsTo_quiet ((State.Quiet.refl s).setVs _ _)
    · exact leadsTo_raise rfl rfl

theorem executed_of_exec {i : Instr} {s t : State} (h : exec i s = .next t) : Executed i s t := by
  obtain ⟨u, hu, he⟩ := exec_leadsTo i s
  rw [h] at hu
  cases hu
  exact he

end Sys2Proof.Machine
end

section
/-! What every instruction keeps (60_exceptions.md R236, R237, R242), and all that a cycle can do (40_cycle.md R80 to R88). -/

namespace Sys2Proof.Machine

open Sys2Proof.Statements

/-! ### What every instruction keeps -/

theorem Executed.sched_or_fault {i : Instr} {s t : State} (h : Executed i s t) :
    (t.sched = s.sched ∧ t.faults = s.faults) ∨ ∃ r, faultOf i = some r ∧ t = faulted s r := by
  cases h with
  | fault r hr => exact .inr ⟨r, hr, rfl⟩
  | quiet t ht => rw [ht.frame]; exact .inl ⟨rfl, rfl⟩
  | jump | call | ret | store => exact .inl ⟨rfl, rfl⟩

/-- The state that no instruction writes, not even where it faults. -/
theorem Executed.control {i : Instr} {s t : State} (h : Executed i s t) :
    t.bp = s.bp ∧ t.lastBp = s.lastBp ∧ t.romMax = s.romMax ∧ t.rate = s.rate ∧ t.key = s.key ∧ t.inputs = s.inputs ∧
      t.results = s.results := by
  cases h with
  | quiet t ht => rw [ht.frame]; exact ⟨rfl, rfl, rfl, rfl, rfl, rfl, rfl⟩
  | fault | jump | call | ret | store => exact ⟨rfl, rfl, rfl, rfl, rfl, rfl, rfl⟩

/-- Only CALL writes the return stack, and only CALL and RET write SP. -/
theorem Executed.stack_of_not_call {i : Instr} {s t : State} (h : Executed i s t) (hcall : ∀ nnn, i ≠ .call nnn) :
    t.stack = s.stack ∧ (i ≠ .ret → t.sp = s.sp) := by
  cases h with
  | quiet t ht => rw [ht.frame]; exact ⟨rfl, fun _ => rfl⟩
  | fault | jump | store => exact ⟨rfl, fun _ => rfl⟩
  | call nnn hi => exact absurd hi (hcall nnn)
  | ret hi => exact ⟨rfl, fun hret => absurd hi hret⟩

/-- Settles O18: of the six things an instruction can do, only the fault writes SCHED or the record. -/
theorem faultsArePrecise : Obligations.FaultsArePrecise := fun _ _ _ h => (executed_of_exec h).sched_or_fault

/-- Settles O19: none of the six things an instruction can do writes the control state, but for SCHED in a fault. -/
theorem programCannotReachControl : Obligations.ProgramCannotReachControl := by
  intro i s t h
  have he := executed_of_exec h
  obtain ⟨hbp, hlast, hromMax, hrate, hkey, hinputs, hresults⟩ := he.control
  exact ⟨hbp, hlast, hromMax, hrate, hkey, hinputs, hresults, he.stack_of_not_call,
    he.sched_or_fault.imp And.left id⟩

/-! ### What a cycle can do -/

/-- What `cycle()` from `s` can lead to, in the order of its checks (R80). -/
inductive Cycled (s : State) : State → Prop
  /-- PC past memory (R81) -/
  | overflow (hpc : 0xFFF < s.pc.toNat) : Cycled s (faulted s .overflow)
  /-- the breakpoint halt (R82) -/
  | breakpoint (hpc : s.pc.toNat ≤ 0xFFF) (hbp : s.pc.toNat ∈ s.bp) (hlast : s.lastBp ≠ some s.pc) : Cycled s s.breakHere
  /-- the second byte of the word does not exist (R84) -/
  | fetch : Cycled s (faulted s.clearMarker .memrange)
  /-- the word is no instruction (R86) -/
  | illegal (hpc : s.pc.toNat ≤ 0xFFE) : Cycled s (faulted (readyToExecute s) .illegal)
  /-- the word is executed (R87) -/
  | executed (i : Instr) (t : State) (hpc : s.pc.toNat ≤ 0xFFE) (ht : Executed i (readyToExecute s) t) : Cycled s t

/-- Every cycle answers a next state, and it is one of the five. -/
theorem cycle_cycled (s : State) : ∃ t, cycle s = .next t ∧ Cycled s t := by
  rcases cycle_cases s with ⟨hpc, h⟩ | ⟨hpc, hb, h⟩ | ⟨hpc, -, h⟩ | ⟨hpc, -, h⟩
  · exact ⟨_, by rw [h, s.halt_eq_faulted rfl], .overflow hpc⟩
  · obtain ⟨hbp, hlast⟩ := s.breaks_iff.1 hb
    exact ⟨_, h, .breakpoint hpc hbp hlast⟩
  · exact ⟨_, by rw [h, State.halt_eq_faulted _ rfl], .fetch⟩
  · rw [h, State.clearMarker_advance]
    rcases runWord_cases (wordAt s s.pc.toNat) (readyToExecute s) with ⟨i, -, hrun⟩ | ⟨hstrict, -⟩ | ⟨_, -, -, hrun⟩
    · obtain ⟨t, ht, he⟩ := exec_leadsTo i (readyToExecute s)
      exact ⟨t, hrun.trans ht, .executed i t hpc he⟩
    · exact absurd hstrict (decodeWord_ne_strict59 _)
    · exact ⟨_, hrun.trans (by rw [State.halt_eq_faulted _ rfl]), .illegal hpc⟩

theorem cycled_of_cycle {s t : State} (h : cycle s = .next t) : Cycled s t := by
  obtain ⟨u, hu, hc⟩ := cycle_cycled s
  rw [h] at hu
  cases hu
  exact hc

/-- Settles O17: each of the five ends of a cycle is a next state. -/
theorem cycleAlwaysAnswers : Obligations.CycleAlwaysAnswers := fun s =>
  let ⟨t, ht, _⟩ := cycle_cycled s
  ⟨t, ht⟩

/-! ### After a breakpoint halt -/

/-- With PC in BP the marker stays, so only PC is written before the instruction. -/
theorem readyToExecute_of_mem {s : State} (hbp : s.pc.toNat ∈ s.bp) : readyToExecute s = wrotePc s (s.pc.toNat + 2) := by
  rw [readyToExecute, if_pos hbp]

/-- Settles O14: the halt makes the marker PC, which lets the next cycle pass, and no instruction writes the marker. -/
theorem breakpointIsOneShot : Obligations.BreakpointIsOneShot := by
  intro s t hpc hbp hlast ht i hi
  rw [cycle_of_breaks (by omega) hbp hlast] at ht
  cases ht
  have hpass : ¬ (s.breakHere.pc.toNat ∈ s.breakHere.bp ∧ s.breakHere.lastBp ≠ some s.breakHere.pc) := fun h => h.2 rfl
  have hcycle : cycle s.breakHere = exec i (wrotePc s.breakHere (s.pc.toNat + 2)) := by
    rw [cycle_of_decodesTo (s := s.breakHere) hpc hpass hi, readyToExecute_of_mem (s := s.breakHere) hbp, State.breakHere_pc]
  refine ⟨hcycle, fun u hu hupc hstops => hstops.2 ?_⟩
  have he := executed_of_exec (hcycle.symm.trans hu)
  obtain ⟨-, hmarker, -⟩ := he.control
  rw [hmarker, hupc]
  rfl

end Sys2Proof.Machine
end

section
/-! All that a host operation can do (46_host_ops.md), and all that one step can do (00_scope.md R7). -/

namespace Sys2Proof.Machine

open Sys2Proof.Statements

/-- The operations that only answer, or write the breakpoint set: none of them is `run` or `stop`. -/
def HostOp.LeavesSched : HostOp → Prop
  | .run _ => False
  | .stop => False
  | _ => True

/-- A breakpoint set that `set`, `remove` or `clear` may make of the one before: still ascending, and an address that was not
in it is even and within the bounds (R208). -/
structure State.NewBp (s : State) (l : List Nat) : Prop where
  ascending : s.bp.Pairwise (· < ·) → l.Pairwise (· < ·)
  inBounds : ∀ a ∈ l, a ∈ s.bp ∨ a % 2 = 0 ∧ 0x200 ≤ a ∧ a ≤ s.romMax

/-- What an operation that is not refused can lead to. -/
inductive Operated (s : State) : HostOp → State → Prop
  | loaded (bytes : List Byte) (hlen : bytes.length ≤ romMaxLen) :
    Operated s (.loadROM bytes) (((s.storeBytes romBase bytes).setPc 0x200).setRomMax (romMaxOf bytes.length))
  | reinitialised (n : Nat) (hn : n ≤ romMaxLen) : Operated s (.reset n) (s.reinit n)
  | started (q : Rat) (hs : s.sched ≠ .running) : Operated s (.run q) (s.resume q)
  | stopped (hs : s.sched = .running) : Operated s .stop (s.setSched .idle)
  | notStopped (hs : s.sched ≠ .running) : Operated s .stop s
  | rated (q : Rat) : Operated s (.changeSpeed q) (s.setRate q)
  | notRated (q : Rat) : Operated s (.changeSpeed q) s
  | cycled (t : State) (hs : s.sched ≠ .running) (ht : Cycled s t) : Operated s .step (t.answer (.steppedTo t.pc))
  | keyed (k : Fin 16) (d : Bool) : Operated s (.setKeyDown k d) (s.setKey k d)
  | breakpoints {op : HostOp} (l : List Nat) (hl : s.NewBp l) (hop : op.LeavesSched) : Operated s op (s.setBp l)
  | answered {op : HostOp} (r : HostResult) (hop : op.LeavesSched) : Operated s op (s.answer r)

theorem State.newBp_insert {s : State} {addr : Int} (h : s.bpBounds addr = true) :
    s.NewBp (insertAddr s.bp (evenFloor addr)) := by
  obtain ⟨hlow, hhigh⟩ := (s.bpBounds_iff addr).1 h
  refine ⟨insertAddr_pairwise _, fun a ha => ((mem_insertAddr ..).1 ha).imp id fun heq => ?_⟩
  rw [heq, evenFloor]; omega

theorem State.newBp_filter (s : State) (p : Nat → Bool) : s.NewBp (s.bp.filter p) :=
  ⟨fun h => h.sublist List.filter_sublist, fun _ ha => .inl (List.mem_of_mem_filter ha)⟩

theorem State.newBp_nil (s : State) : s.NewBp [] := ⟨fun _ => .nil, nofun⟩

/-- Every operation, from every state, is refused or does one of these. -/
theorem operated_of_hostOp {op : HostOp} {s t : State} (h : hostOp op s = .next t) : Operated s op t := by
  cases op
  case loadROM bytes =>
    simp only [hostOp, hostLoadROM] at h
    split_ifs at h with hlen <;> cases h
    · exact .answered _ (by trivial)
    · exact .loaded bytes (by omega)
  case reset n =>
    simp only [hostOp, hostReset] at h
    split_ifs at h with hn
    cases h
    exact .reinitialised n (by omega)
  case run q =>
    simp only [hostOp, hostRun] at h
    split_ifs at h with hs hq
    cases h
    exact .started q hs
  case stop =>
    simp only [hostOp, hostStop] at h
    split_ifs at h with hs <;> cases h
    · exact .stopped hs
    · exact .notStopped hs
  case changeSpeed q =>
    simp only [hostOp, hostChangeSpeed] at h
    split_ifs at h with hq hs <;> cases h
    · exact .rated q
    · exact .notRated q
  case step =>
    simp only [hostOp, hostStep] at h
    split_ifs at h with hs
    · cases h; exact .answered _ (by trivial)
    · obtain ⟨u, hu, hc⟩ := cycle_cycled s
      rw [hu] at h
      cases h
      exact .cycled u hs hc
  case setKeyDown k d =>
    simp only [hostOp, hostSetKeyDown] at h
    split_ifs at h with hk
    cases h
    exact .keyed ⟨k, hk⟩ d
  case bpSet addr =>
    simp only [hostOp, hostBpSet] at h
    split_ifs at h with hb <;> cases h
    · exact .breakpoints _ (State.newBp_insert hb) (by trivial)
    · exact .answered _ (by trivial)
  case bpRemove addr =>
    simp only [hostOp, hostBpRemove] at h
    split_ifs at h with hb hmem <;> cases h
    · exact .breakpoints _ (s.newBp_filter _) (by trivial)
    all_goals exact .answered _ (by trivial)
  case bpClear =>
    cases h
    exact .breakpoints _ s.newBp_nil (by trivial)
  case bpList =>
    cases h
    exact .answered _ (by trivial)
  case peek a =>
    simp only [hostOp, hostPeek] at h
    split_ifs at h with ha
    cases h
    exact .answered _ (by trivial)

/-- What one step can lead to, by the event it takes. -/
inductive Stepped (s : State) : Option Input → State → Prop
  | nothing (hs : s.sched ≠ .running) (hi : s.inputs = []) : Stepped s none s
  | cycle (t : State) (hs : s.sched = .running) (ht : Cycled s.popInput t) : Stepped s (some .cycleTick) t
  | cancelled (hs : s.sched ≠ .running) : Stepped s (some .cycleTick) s.popInput
  | timer (t : State) (ht : s.popInput.Quiet t) : Stepped s (some .timerTick) t
  | host (op : HostOp) (t : State) (ht : Operated s.popInput op t) : Stepped s (some (.host op)) t

theorem nextInput_eq_none {s : State} (h : s.nextInput = none) : s.inputs = [] ∧ s.sched ≠ .running := by
  rcases nextInput_cases s with ⟨_, _, -, he⟩ | ⟨-, -, he⟩ | ⟨hi, hs, -⟩
  · rw [he] at h; cases h
  · rw [he] at h; cases h
  · exact ⟨hi, hs⟩

theorem stepped_of_step {s t : State} (h : step s = .next t) : Stepped s s.nextInput t := by
  unfold step at h
  rcases hn : s.nextInput with _ | ⟨_ | _ | op⟩ <;> rw [hn] at h
  case none =>
    obtain ⟨hi, hs⟩ := nextInput_eq_none hn
    cases h
    exact .nothing hs hi
  case some.cycleTick =>
    change cycleTick s.popInput = .next t at h
    unfold cycleTick at h
    split_ifs at h with hs
    · exact .cycle t hs (cycled_of_cycle h)
    · cases h; exact .cancelled hs
  case some.timerTick =>
    change tickTimers s.popInput = .next t at h
    unfold tickTimers at h
    split_ifs at h with hs <;> cases h
    · exact .timer _ (State.Quiet.refl _).timerTick
    · exact .timer _ (State.Quiet.refl _)
  case some.host => exact .host op t (operated_of_hostOp h)

end Sys2Proof.Machine
end

section
/-! Every step keeps the machine's invariant (10_state.md R31, R91, R22 to R24; 60_exceptions.md R239): each thing that an
instruction, a cycle, an operation and a step can do keeps it. -/

namespace Sys2Proof.Machine

open Sys2Proof.Statements

theorem isFault_of_faultOf {i : Instr} {r : HaltReason} (h : faultOf i = some r) : r.isFault = true := by
  cases i <;> cases h <;> rfl

/-- ROMMAX lies in the range of breakpoint addresses for every length a ROM may have (R212). -/
theorem romMaxOf_bounds {n : Nat} (hn : n ≤ romMaxLen) :
    0x200 ≤ romMaxOf n ∧ romMaxOf n ≤ 0xFFF := by
  unfold romMaxOf romBase
  unfold romMaxLen at hn
  split_ifs <;> omega

/-- The return stack after power-on or `reset` (R30, R202). -/
theorem toNat_le_of_mem_replicate_zero : ∀ w ∈ (Vector.replicate 16 (0 : Word)).toList, w.toNat ≤ 0x1000 := by
  intro w hw
  rw [Vector.toList_replicate] at hw
  rw [List.eq_of_mem_replicate hw]
  decide

namespace State.Inv

variable {s t : State}

theorem quiet (h : s.Inv) (ht : s.Quiet t) : t.Inv := by
  rw [ht.frame]
  exact { h with }

/-- A halt by a fault puts the fault on record. -/
theorem faulted (h : s.Inv) {r : HaltReason} (hr : r.isFault = true) : (faulted s r).Inv := by
  obtain ⟨-, hall⟩ := h.record
  refine { h with record := ⟨fun q hq _ => ?_, fun q hq => ?_⟩ }
  · cases hq
    exact List.mem_append_right _ List.mem_cons_self
  · rcases List.mem_append.1 hq with hq | hq
    · exact hall q hq
    · rwa [List.mem_singleton.1 hq]

/-- A breakpoint halt is no fault, and the marker it writes is in BP. -/
theorem breakHere (h : s.Inv) (hbp : s.pc.toNat ∈ s.bp) : s.breakHere.Inv := by
  obtain ⟨-, hall⟩ := h.record
  obtain ⟨-, haddr⟩ := h.breakpoints
  refine { h with marker := fun a ha => ?_, record := ⟨fun r hr hfault => ?_, fun r hr => ?_⟩ }
  · cases ha
    exact haddr _ hbp
  · cases hr
    cases hfault
  · exact hall r (by simpa using hr)

/-- The scheduler may take any state that is not halted by a fault. -/
theorem setSched (h : s.Inv) {x : Sched} (hx : ∀ r, x ≠ .halted r) : (s.setSched x).Inv :=
  { h with record := ⟨fun r hr => absurd hr (hx r), h.record.2⟩ }

theorem setPc (h : s.Inv) {w : Word} (hw : w.toNat ≤ 0x10FE) : (s.setPc w).Inv := { h with counter := hw }

theorem storeBytes (h : s.Inv) {a : Nat} {bs : List Byte} (hbs : bs = [] ∨ a + bs.length ≤ memSize) :
    (s.storeBytes a bs).Inv :=
  { h with memory := Memory.wf_putAll h.memory hbs }

theorem clearMarker (h : s.Inv) : s.clearMarker.Inv := by
  unfold State.clearMarker
  split
  · exact h
  · exact { h with marker := nofun }

theorem readyToExecute (h : s.Inv) (hpc : s.pc.toNat ≤ 0xFFE) : (readyToExecute s).Inv := by
  rw [← State.clearMarker_advance]
  refine h.clearMarker.setPc ?_
  rw [State.clearMarker_pc, add_two_eq_ofNat, BitVec.toNat_ofNat]
  omega

/-- A push of a return address that a cycle can give (R91, R103). -/
theorem call (h : s.Inv) (nnn : Addr12) (hsp : s.sp.toNat < 16) (hpc : s.pc.toNat ≤ 0x1000) :
    (((s.setStack ⟨s.sp.toNat, hsp⟩ s.pc).setSp (s.sp + 1)).setPc (addrOf nnn)).Inv := by
  refine { h with depth := ?_, counter := ?_, returns := fun w hw => ?_ }
  · change (s.sp + 1).toNat ≤ 16
    rw [BitVec.toNat_add]
    change (s.sp.toNat + 1) % 256 ≤ 16
    omega
  · change (addrOf nnn).toNat ≤ 0x10FE
    have := nnn.isLt
    rw [addrOf_toNat]; omega
  · change w ∈ (s.stack.set s.sp.toNat s.pc hsp).toList at hw
    rw [Vector.toList_set] at hw
    rcases List.mem_or_eq_of_mem_set hw with hw | rfl
    · exact h.returns w hw
    · exact hpc

theorem ret (h : s.Inv) (hsp : 0 < s.sp.toNat ∧ s.sp.toNat ≤ 16) :
    ((s.setSp (s.sp - 1)).setPc (s.stack[s.sp.toNat - 1]'(by omega))).Inv := by
  refine { h with depth := ?_, counter := ?_ }
  · change (s.sp - 1).toNat ≤ 16
    rw [byte_sub_eq_ofNat, BitVec.toNat_ofNat]
    change (s.sp.toNat + 256 - 1) % 256 % 256 ≤ 16
    omega
  · have hpop := h.returns (s.stack[s.sp.toNat - 1]'(by omega)) (Vector.mem_toList_iff.2 (Vector.getElem_mem _))
    exact le_trans hpop (by decide)

theorem executed (h : s.Inv) {i : Instr} (ht : Executed i s t) (hlow : 2 ≤ s.pc.toNat) (hhigh : s.pc.toNat ≤ 0x1000) :
    t.Inv := by
  cases ht with
  | fault r hr => exact h.faulted (isFault_of_faultOf hr)
  | quiet t ht => exact h.quiet ht
  | jump w hw => exact h.setPc (hw hlow hhigh)
  | call nnn _ hsp => exact h.call nnn hsp hhigh
  | ret _ hsp => exact h.ret hsp
  | store bs hbs => exact h.storeBytes hbs

theorem cycled (h : s.Inv) (ht : Cycled s t) : t.Inv := by
  cases ht with
  | overflow => exact h.faulted rfl
  | breakpoint _ hbp => exact h.breakHere hbp
  | fetch => exact h.clearMarker.faulted rfl
  | illegal hpc => exact (h.readyToExecute hpc).faulted rfl
  | executed i t hpc ht =>
    have hready : (Statements.readyToExecute s).pc.toNat = s.pc.toNat + 2 := by
      change (BitVec.ofNat 16 (s.pc.toNat + 2)).toNat = _
      rw [BitVec.toNat_ofNat]; omega
    exact (h.readyToExecute hpc).executed ht (by omega) (by omega)

theorem loaded (h : s.Inv) {bytes : List Byte} (hlen : bytes.length ≤ romMaxLen) :
    (((s.storeBytes romBase bytes).setPc 0x200).setRomMax (romMaxOf bytes.length)).Inv := by
  have hstored : ((s.storeBytes romBase bytes).setPc 0x200).Inv :=
    (h.storeBytes (.inr (Nat.add_le_add_left hlen romBase))).setPc (by decide)
  exact { hstored with bounds := romMaxOf_bounds hlen }

theorem reinit (h : s.Inv) {n : Nat} (hn : n ≤ romMaxLen) : (s.reinit n).Inv where
  memory := Memory.wf_nil
  depth := by rw [State.reinit_sp]; decide
  counter := by rw [State.reinit_pc]; decide
  returns := toNat_le_of_mem_replicate_zero
  breakpoints := h.breakpoints
  marker := h.marker
  bounds := romMaxOf_bounds hn
  record := h.record

theorem setBp (h : s.Inv) {l : List Nat} (hl : s.NewBp l) : (s.setBp l).Inv := by
  obtain ⟨hsorted, haddr⟩ := h.breakpoints
  obtain ⟨-, hromMax⟩ := h.bounds
  refine { h with breakpoints := ⟨hl.ascending hsorted, fun a ha => ?_⟩ }
  rcases hl.inBounds a ha with ha | ⟨heven, hlow, hhigh⟩
  · exact haddr a ha
  · exact ⟨heven, hlow, hhigh.trans hromMax⟩

theorem operated (h : s.Inv) {op : HostOp} (ht : Operated s op t) : t.Inv := by
  cases ht with
  | loaded bytes hlen => exact h.loaded hlen
  | reinitialised n hn => exact h.reinit hn
  | started q => exact { h.setSched (x := .running) nofun with }
  | stopped => exact h.setSched nofun
  | notStopped | notRated => exact h
  | rated | keyed | answered => exact { h with }
  | cycled t _ ht => exact { h.cycled ht with }
  | breakpoints l hl => exact h.setBp hl

theorem popInput (h : s.Inv) : s.popInput.Inv := { h with }

theorem stepped (h : s.Inv) {e : Option Input} (ht : Stepped s e t) : t.Inv := by
  cases ht with
  | nothing => exact h
  | cycle t _ ht => exact h.popInput.cycled ht
  | cancelled => exact h.popInput
  | timer t ht => exact h.popInput.quiet ht
  | host op t ht => exact h.popInput.operated ht

end State.Inv

/-- Settles O8: each of the things a step can do keeps the invariant. -/
theorem stepKeepsInvariant : Obligations.StepKeepsInvariant := fun _ _ h ht => h.stepped (stepped_of_step ht)

/-- Settles O7: memory, BP and the records are empty, and every number is in its range. -/
theorem invariantAtPowerOn : Obligations.InvariantAtPowerOn where
  memory := Memory.wf_nil
  depth := by decide
  counter := by decide
  returns := toNat_le_of_mem_replicate_zero
  breakpoints := ⟨.nil, nofun⟩
  marker := nofun
  bounds := by decide
  record := ⟨nofun, nofun⟩

end Sys2Proof.Machine
end

section
/-! The records only grow, and what that says of the end of a run (46_host_ops.md section 6; 60_exceptions.md R239;
70_reset_and_hazards.md R283). -/

namespace Sys2Proof.Machine

open Sys2Proof.Statements

/-! ### Growth -/

/-- The record of faults and the three outputs of `s` are the beginnings of those of `t`. -/
structure State.Grows (s t : State) : Prop where
  faults : s.faults <+: t.faults
  out : s.out <+: t.out
  trace : s.trace <+: t.trace
  results : s.results <+: t.results

theorem State.Grows.refl (s : State) : s.Grows s :=
  ⟨List.prefix_refl _, List.prefix_refl _, List.prefix_refl _, List.prefix_refl _⟩

theorem State.Grows.trans {s t u : State} (h : s.Grows t) (h' : t.Grows u) : s.Grows u :=
  ⟨h.faults.trans h'.faults, h.out.trans h'.out, h.trace.trans h'.trace, h.results.trans h'.results⟩

theorem State.grows_faulted (s : State) (r : HaltReason) : s.Grows (faulted s r) :=
  ⟨List.prefix_append .., List.prefix_append .., List.prefix_refl _, List.prefix_refl _⟩

theorem State.grows_breakHere (s : State) : s.Grows s.breakHere :=
  ⟨List.prefix_append .., List.prefix_append .., List.prefix_refl _, List.prefix_refl _⟩

theorem State.grows_answer (s : State) (r : HostResult) : s.Grows (s.answer r) :=
  ⟨List.prefix_refl _, List.prefix_refl _, List.prefix_refl _, List.prefix_append ..⟩

/-- A write that is only noticed. -/
theorem State.grows_of_notices {s t : State} (hfaults : t.faults = s.faults) (hout : t.out = s.out)
    (htrace : s.trace <+: t.trace) (hresults : t.results = s.results) : s.Grows t :=
  ⟨hfaults ▸ List.prefix_refl _, hout ▸ List.prefix_refl _, htrace, hresults ▸ List.prefix_refl _⟩

theorem State.Quiet.grows {s t : State} (h : s.Quiet t) : s.Grows t := by
  obtain ⟨es, hes, -⟩ := h.events
  refine ⟨?_, hes ▸ List.prefix_append .., h.notices, ?_⟩ <;> rw [h.frame]

theorem Executed.grows {i : Instr} {s t : State} (h : Executed i s t) : s.Grows t := by
  cases h with
  | fault r => exact s.grows_faulted r
  | quiet t ht => exact ht.grows
  | jump | store => exact State.grows_of_notices rfl rfl (List.prefix_append ..) rfl
  | call | ret => exact State.grows_of_notices rfl rfl (by simp [List.append_assoc]) rfl

theorem Cycled.grows {s t : State} (h : Cycled s t) : s.Grows t := by
  have hmarker : s.Grows s.clearMarker := State.grows_of_notices (by simp) (by simp) (by simp) (by simp)
  have hready : s.Grows (readyToExecute s) := State.grows_of_notices rfl rfl (List.prefix_append ..) rfl
  cases h with
  | overflow => exact s.grows_faulted _
  | breakpoint => exact s.grows_breakHere
  | fetch => exact hmarker.trans (State.grows_faulted _ _)
  | illegal => exact hready.trans (State.grows_faulted _ _)
  | executed i t _ ht => exact hready.trans ht.grows

theorem Operated.grows {op : HostOp} {s t : State} (h : Operated s op t) : s.Grows t := by
  cases h with
  | loaded => exact State.grows_of_notices rfl rfl (by simp [List.append_assoc]) rfl
  | reinitialised => exact State.grows_of_notices rfl rfl (List.prefix_append ..) rfl
  | started | stopped | notStopped | rated | notRated | keyed | breakpoints =>
    exact State.grows_of_notices rfl rfl (List.prefix_refl _) rfl
  | cycled t _ ht => exact ht.grows.trans (t.grows_answer _)
  | answered => exact s.grows_answer _

theorem Stepped.grows {s t : State} {e : Option Input} (h : Stepped s e t) : s.Grows t := by
  have hpop : s.Grows s.popInput := State.grows_of_notices rfl rfl (List.prefix_refl _) rfl
  cases h with
  | nothing => exact .refl s
  | cycle t _ ht => exact hpop.trans ht.grows
  | cancelled => exact hpop
  | timer t ht => exact hpop.trans ht.grows
  | host op t ht => exact hpop.trans ht.grows

/-- Settles O10: every update a step makes of a record appends to it. -/
theorem recordsOnlyGrow : Obligations.RecordsOnlyGrow := fun _ _ h =>
  have hgrows := (stepped_of_step h).grows
  ⟨hgrows.faults, hgrows.out, hgrows.trace, hgrows.results⟩

/-! ### A faulted run never ends -/

/-- Settles O60: both forms of END ask for an empty record of faults, and the record only grows. -/
theorem faultedRunNeverEnds : Obligations.FaultedRunNeverEnds := by
  refine ⟨fun s r hs hr hend => ?halted, fun s t hs ht => ?onRecord⟩
  case halted =>
    obtain ⟨-, hsched, -⟩ := hend
    rw [hs, Sched.faulted, hr] at hsched
    cases hsched
  case onRecord =>
    have hfaults : t.faults ≠ [] := fun hnone => hs (List.prefix_nil.1 (hnone ▸ (stepped_of_step ht).grows.faults))
    refine ⟨hfaults, fun hend => hfaults hend.1, fun a hstop => ?_⟩
    obtain ⟨-, -, -, -, hfree⟩ := hstop
    exact hfaults hfree

/-! ### A run stopped at an address -/

theorem out_ne_append_halt {s t : State} {r : HaltReason} (h : ∃ es, t.out = s.out ++ es ∧ ∀ r, .halt r ∉ es) :
    t.out ≠ s.out ++ [.halt r] := by
  obtain ⟨es, hes, hnone⟩ := h
  intro hout
  have : es = [.halt r] := List.append_cancel_left (hes.symm.trans hout)
  exact hnone r (this ▸ List.mem_cons_self)

theorem out_ne_append_halt_of_eq {s t : State} {r : HaltReason} (h : t.out = s.out) : t.out ≠ s.out ++ [.halt r] :=
  out_ne_append_halt ⟨[], by rw [h, List.append_nil], fun _ => List.not_mem_nil⟩

theorem faulted_faults_ne_nil (s : State) (r : HaltReason) : (faulted s r).faults ≠ [] :=
  List.append_ne_nil_of_right_ne_nil _ (List.cons_ne_nil _ _)

/-- An instruction emits no halt but that of its fault. -/
theorem Executed.out_ne_append_halt {i : Instr} {s t : State} {r : HaltReason} (h : Executed i s t)
    (hfree : t.faultFree) : t.out ≠ s.out ++ [.halt r] := by
  cases h with
  | fault q => exact absurd hfree (faulted_faults_ne_nil s q)
  | quiet t ht => exact Machine.out_ne_append_halt ht.events
  | jump | call | ret | store => exact out_ne_append_halt_of_eq rfl

/-- A cycle that emits one halt and records no fault is the breakpoint halt. -/
theorem Cycled.eq_breakHere {s t : State} {r : HaltReason} (h : Cycled s t) (hfree : t.faultFree)
    (hout : t.out = s.out ++ [.halt r]) : t = s.breakHere ∧ s.pc.toNat ∈ s.bp ∧ s.lastBp ≠ some s.pc := by
  cases h with
  | overflow | fetch | illegal => exact absurd hfree (faulted_faults_ne_nil _ _)
  | breakpoint _ hbp hlast => exact ⟨rfl, hbp, hlast⟩
  | executed i t _ ht => exact absurd hout (ht.out_ne_append_halt hfree)

/-- Settles O59: of all that a step can do, only a cycle emits a halt. -/
theorem stoppedAtIsTheHalt : Obligations.StoppedAtIsTheHalt := by
  rintro s t a ⟨hstep, hout, hsched, rfl, hfree⟩
  have hstepped := stepped_of_step hstep
  generalize s.nextInput = e at hstepped
  cases hstepped with
  | nothing => exact absurd hout (out_ne_append_halt_of_eq rfl)
  | cancelled => exact absurd hout (out_ne_append_halt_of_eq rfl)
  | timer t ht => exact absurd hout (out_ne_append_halt ht.events)
  | cycle t hs ht =>
    obtain ⟨rfl, hbp, hlast⟩ := ht.eq_breakHere hfree hout
    exact ⟨.inl ⟨rfl, hs⟩, rfl, hbp, hlast, rfl, rfl, rfl, rfl⟩
  | host op t ht =>
    cases ht with
    | cycled t hs ht =>
      obtain ⟨rfl, hbp, hlast⟩ := ht.eq_breakHere hfree hout
      exact ⟨.inr ⟨rfl, hs⟩, rfl, hbp, hlast, rfl, rfl, rfl, rfl⟩
    | loaded | reinitialised | started | stopped | notStopped | rated | notRated | keyed | breakpoints | answered =>
      exact absurd hout (out_ne_append_halt_of_eq rfl)

end Sys2Proof.Machine
end

section
/-! The scheduler's transitions, the refusals and the steps that run a cycle (60_exceptions.md R253; 46_host_ops.md R206,
R218; 40_cycle.md). -/

namespace Sys2Proof.Machine

open Sys2Proof.Statements

/-! ### Transitions of SCHED -/

theorem Cycled.sched {s t : State} (h : Cycled s t) : t.sched = s.sched ∨ ∃ r, t.sched = .halted r := by
  cases h with
  | overflow | breakpoint | fetch | illegal => exact .inr ⟨_, rfl⟩
  | executed i t _ ht =>
    rcases ht.sched_or_fault with ⟨hs, -⟩ | ⟨r, -, rfl⟩
    · exact .inl hs
    · exact .inr ⟨r, rfl⟩

/-- The rows of R253's table, by the event that a step takes. -/
def SchedRow (s t : State) (e : Option Input) : Prop :=
  match e with
  | some .cycleTick => t.sched = s.sched ∨ (s.sched = .running ∧ ∃ r, t.sched = .halted r)
  | some .timerTick => t.sched = s.sched
  | some (.host (.run _)) => s.sched ≠ .running ∧ t.sched = .running
  | some (.host .stop) => (s.sched = .running ∧ t.sched = .idle) ∨ (s.sched ≠ .running ∧ t.sched = s.sched)
  | some (.host .step) => t.sched = s.sched ∨ (s.sched ≠ .running ∧ ∃ r, t.sched = .halted r)
  | some (.host _) => t.sched = s.sched
  | none => s.sched ≠ .running ∧ t = s

/-- An operation that leaves the scheduler alone meets its row, whichever it is. -/
theorem schedRow_of_leavesSched {s t : State} {op : HostOp} (hop : op.LeavesSched) (h : t.sched = s.sched) :
    SchedRow s t (some (.host op)) := by
  cases op
  case run | stop => exact hop.elim
  case step => exact .inl h
  all_goals exact h

theorem Stepped.schedRow {s t : State} {e : Option Input} (h : Stepped s e t) : SchedRow s t e := by
  cases h with
  | nothing hs => exact ⟨hs, rfl⟩
  | cycle t hs ht => exact ht.sched.imp id fun hr => ⟨hs, hr⟩
  | cancelled => exact .inl rfl
  | timer t ht =>
    change t.sched = s.sched
    rw [ht.frame, State.popInput_sched]
  | host op t ht =>
    cases ht with
    | started q hs => exact ⟨hs, rfl⟩
    | stopped hs => exact .inl ⟨hs, rfl⟩
    | notStopped hs => exact .inr ⟨hs, rfl⟩
    | cycled t hs ht => exact ht.sched.imp id fun hr => ⟨hs, hr⟩
    | loaded | reinitialised | rated | notRated | keyed => exact (rfl : s.sched = s.sched)
    | breakpoints l hl hop => exact schedRow_of_leavesSched hop rfl
    | answered r hop => exact schedRow_of_leavesSched hop rfl

theorem run_of_no_inputs {s : State} (hi : s.inputs = []) (hs : s.sched ≠ .running) (k : Nat) :
    core.run k s = .next s := by
  induction k with
  | zero => rfl
  | succ k ih => rw [run_succ_of_next k (step_of_no_inputs hi hs), ih]

/-- Settles O57: the table is met row by row, and a step with no event to take leads back to the state before. -/
theorem schedulerTransitions : Obligations.SchedulerTransitions :=
  ⟨fun _ _ h => (stepped_of_step h).schedRow, fun _ k hi hs => run_of_no_inputs hi hs k⟩

/-! ### Refusals -/

/-- The operation breaks one of the host's duties (R218). -/
def HostOp.BreaksDuty (s : State) : HostOp → Prop
  | .run q => s.sched = .running ∨ ¬ 0 < q
  | .changeSpeed q => ¬ 0 < q
  | .setKeyDown k _ => 15 < k
  | .reset n => 3584 < n
  | .peek a => 0xFFF < a
  | _ => False

theorem not_refused_of_next {o : Result} {t : State} (h : o = .next t) : ¬ ∃ r, o = .refused r := by
  rintro ⟨r, hr⟩
  rw [h] at hr
  cases hr

theorem hostStep_answers (s : State) : ∃ t, hostStep s = .next t := by
  unfold hostStep
  split
  · exact ⟨_, rfl⟩
  · obtain ⟨t, ht, -⟩ := cycle_cycled s
    exact ⟨_, by rw [ht]⟩

theorem hostOp_refused_iff (op : HostOp) (s : State) : (∃ r, hostOp op s = .refused r) ↔ op.BreaksDuty s := by
  cases op <;> simp only [hostOp, HostOp.BreaksDuty, iff_false]
  case step =>
    obtain ⟨t, ht⟩ := hostStep_answers s
    exact not_refused_of_next ht
  case loadROM => unfold hostLoadROM; split_ifs <;> simp
  case bpSet => unfold hostBpSet; split_ifs <;> simp
  case bpRemove => unfold hostBpRemove; split_ifs <;> simp
  case stop | bpClear | bpList => exact not_refused_of_next rfl
  case run => unfold hostRun; split_ifs <;> simp [*]
  case changeSpeed => unfold hostChangeSpeed; split_ifs <;> simp [*]
  case reset => unfold hostReset romMaxLen; split_ifs <;> simp [*]
  case setKeyDown => unfold hostSetKeyDown; split_ifs <;> simp <;> omega
  case peek => unfold hostPeek memSize; split_ifs <;> simp <;> omega

theorem cycleTick_answers (s : State) : ∃ t, cycleTick s = .next t := by
  unfold cycleTick
  split
  · obtain ⟨t, ht, -⟩ := cycle_cycled s
    exact ⟨t, ht⟩
  · exact ⟨s, rfl⟩

/-- Only an operation of the host is refused. -/
theorem step_refused_iff (s : State) :
    (∃ r, step s = .refused r) ↔ ∃ op, s.nextInput = some (.host op) ∧ op.BreaksDuty s := by
  unfold step
  rcases s.nextInput with _ | ⟨_ | _ | op⟩
  case none => exact iff_of_false (not_refused_of_next (t := s) rfl) (by simp)
  case some.cycleTick =>
    obtain ⟨t, ht⟩ := cycleTick_answers s.popInput
    exact iff_of_false (not_refused_of_next ht) (by simp)
  case some.timerTick => exact iff_of_false (not_refused_of_next rfl) (by simp)
  case some.host =>
    have hop := hostOp_refused_iff op s.popInput
    simp only [Option.some.injEq, Input.host.injEq, exists_eq_left']
    exact hop

/-- Settles O56: the five duties are those that `BreaksDuty` names. -/
theorem refusedExactlyOnBrokenDuty : Obligations.RefusedExactlyOnBrokenDuty := by
  refine fun s => ⟨?_, fun f => nomatch f⟩
  rw [step_refused_iff]
  constructor
  · rintro ⟨op, hop, hduty⟩
    cases op
    case run q => exact .inl ⟨q, hop, hduty⟩
    case changeSpeed q => exact .inr (.inl ⟨q, hop, hduty⟩)
    case setKeyDown k d => exact .inr (.inr (.inl ⟨k, d, hop, hduty⟩))
    case reset n => exact .inr (.inr (.inr (.inl ⟨n, hop, hduty⟩)))
    case peek a => exact .inr (.inr (.inr (.inr ⟨a, hop, hduty⟩)))
    all_goals exact hduty.elim
  · rintro (⟨q, h, hd⟩ | ⟨q, h, hd⟩ | ⟨k, d, h, hd⟩ | ⟨n, h, hd⟩ | ⟨a, h, hd⟩) <;> exact ⟨_, h, hd⟩

/-! ### The steps that run a cycle -/

theorem hostOp_step_of_running {s : State} (hs : s.sched = .running) : hostOp .step s = .next (s.answer .stepBusy) :=
  if_pos hs

theorem hostOp_step_of_cycle {s t : State} (hs : s.sched ≠ .running) (ht : cycle s = .next t) :
    hostOp .step s = .next (t.answer (.steppedTo t.pc)) := by
  change hostStep s = _
  rw [hostStep, if_neg hs, ht]

/-- Settles O11: the event is taken before the cycle, which does not read the schedule. -/
theorem stepRunsDecodedInstruction : Obligations.StepRunsDecodedInstruction := by
  intro s i hpc hbp hi
  have hcycle : cycle s.popInput = exec i (readyToExecute s.popInput) := cycle_of_decodesTo (s := s.popInput) hpc hbp hi
  refine ⟨?running, ?step⟩
  case running =>
    rintro ⟨hnext, hs⟩
    rw [step, hnext]
    exact (if_pos hs).trans hcycle
  case step =>
    rintro ⟨hnext, hs⟩ t ht
    rw [step, hnext]
    exact hostOp_step_of_cycle (s := s.popInput) hs (hcycle.trans ht)

end Sys2Proof.Machine

namespace Sys2Proof

open Sys2Proof.Machine

/-- Settles O52: `step()` looks at SCHED first, and a cycle always answers. -/
theorem hostStep : Obligations.HostStep := by
  refine fun s => ⟨hostOp_step_of_running, fun hs => ?_⟩
  obtain ⟨t, ht, -⟩ := cycle_cycled s
  exact ⟨t, ht, hostOp_step_of_cycle hs ht⟩

end Sys2Proof
end

section
/-! No action reads the logs (46_host_ops.md section 6; 10_state.md R21): an action does the same from a state and from that
state without them. -/

namespace Sys2Proof.Machine

/-- The action answers alike, but for the logs, with and without the logs of the state before. -/
def ReadsNoLogs (f : State → Result) : Prop := ∀ s, withoutLogs (f s) = withoutLogs (f s.withoutLogs)

/-! ### Conditionals and updates -/

theorem withoutLogs_ite_congr {c : Prop} [Decidable c] {a b a' b' : Result} (ha : withoutLogs a = withoutLogs a')
    (hb : withoutLogs b = withoutLogs b') : withoutLogs (if c then a else b) = withoutLogs (if c then a' else b') := by
  split
  · exact ha
  · exact hb

theorem withoutLogs_dite_congr {c : Prop} [Decidable c] {a a' : c → Result} {b b' : ¬ c → Result}
    (ha : ∀ h, withoutLogs (a h) = withoutLogs (a' h)) (hb : ∀ h, withoutLogs (b h) = withoutLogs (b' h)) :
    withoutLogs (dite c a b) = withoutLogs (dite c a' b') := by
  split
  · exact ha _
  · exact hb _

theorem withoutLogs_next_ite_congr {c : Prop} [Decidable c] {a b a' b' : State} (ha : a.withoutLogs = a'.withoutLogs)
    (hb : b.withoutLogs = b'.withoutLogs) :
    withoutLogs (.next (if c then a else b)) = withoutLogs (.next (if c then a' else b')) := by
  split
  · exact congrArg Host.Outcome.next ha
  · exact congrArg Host.Outcome.next hb

theorem State.withoutLogs_collide (s : State) (x : Fin 64) (y : Fin 32) :
    (s.collide x y).withoutLogs = (s.withoutLogs.collide x y).withoutLogs := by
  by_cases h : s.cell x y = true
  · have h' : s.withoutLogs.cell x y = true := h
    rw [State.collide, State.collide, if_pos h, if_pos h']; rfl
  · have h' : ¬ s.withoutLogs.cell x y = true := h
    rw [State.collide, State.collide, if_neg h, if_neg h']; rfl

theorem State.withoutLogs_plot (s : State) (p : Fin 64 × Fin 32) :
    (s.plot p).withoutLogs = (s.withoutLogs.plot p).withoutLogs :=
  congrArg (fun w : State => (w.toggle p.1 p.2).withoutLogs) (s.withoutLogs_collide p.1 p.2)

/-- An update that reads no logs may be repeated. -/
theorem State.withoutLogs_foldl {α : Type} {f : State → α → State}
    (hf : ∀ s a, (f s a).withoutLogs = (f s.withoutLogs a).withoutLogs) (l : List α) (s : State) :
    (l.foldl f s).withoutLogs = (l.foldl f s.withoutLogs).withoutLogs := by
  induction l generalizing s with
  | nil => rfl
  | cons a l ih => rw [List.foldl_cons, List.foldl_cons, ih, hf, ← ih]

theorem State.withoutLogs_setVs (s : State) (k : Nat) (bs : List Byte) :
    (s.setVs k bs).withoutLogs = (s.withoutLogs.setVs k bs).withoutLogs := by
  induction bs generalizing s k with
  | nil => rfl
  | cons b bs ih =>
    have hset : (s.setV (BitVec.ofNat 4 k) b).withoutLogs = (s.withoutLogs.setV (BitVec.ofNat 4 k) b).withoutLogs := rfl
    rw [State.setVs, State.setVs, ih, hset, ← ih]

/-! ### Instructions -/

theorem readsNoLogs_skipIf (c : State → Bool) (hc : ∀ s, c s = c s.withoutLogs) :
    ReadsNoLogs fun s => skipIf (c s) s := by
  intro s
  simp only [skipIf, ← hc]
  cases c s <;> rfl

theorem readsNoLogs_withKey (x : Nibble) (f : Bool → Bool) : ReadsNoLogs fun s => withKey x s fun d => skipIf (f d) s := by
  intro s
  refine withoutLogs_dite_congr (c := (s.getV x).toNat < 16) (fun h => ?_) fun _ => rfl
  exact readsNoLogs_skipIf (fun _ => f (s.key[(s.getV x).toNat]'h)) (fun _ => rfl) s

theorem readsNoLogs_storeAtI (bs : State → List Byte) (hbs : ∀ s, bs s = bs s.withoutLogs) :
    ReadsNoLogs fun s => storeAtI (bs s) s := by
  intro s
  have hi : s.withoutLogs.i = s.i := rfl
  simp only [storeAtI, State.memWrite, ← hbs, hi]
  cases inRange s.i.toNat (bs s).length <;> rfl

theorem readsNoLogs_exec (i : Instr) : ReadsNoLogs (exec i) := by
  intro s
  cases i
  case seImm x nn => exact readsNoLogs_skipIf (fun s => s.getV x == nn) (fun _ => rfl) s
  case sneImm x nn => exact readsNoLogs_skipIf (fun s => s.getV x != nn) (fun _ => rfl) s
  case seReg x y n => exact readsNoLogs_skipIf (fun s => s.getV x == s.getV y) (fun _ => rfl) s
  case sneReg x y n => exact readsNoLogs_skipIf (fun s => s.getV x != s.getV y) (fun _ => rfl) s
  case skp x => exact readsNoLogs_withKey x id s
  case sknp x => exact readsNoLogs_withKey x (!·) s
  case ldB x => exact readsNoLogs_storeAtI (fun s => bcdDigits (s.getV x)) (fun _ => rfl) s
  case stRegs x => exact readsNoLogs_storeAtI (fun s => regsUpTo s x) (fun _ => rfl) s
  case call nnn => exact withoutLogs_dite_congr (fun _ => rfl) fun _ => rfl
  case ret => exact withoutLogs_dite_congr (fun _ => rfl) fun _ => rfl
  case ldVxK x =>
    rcases h : lowestKey s with _ | k
    · rw [exec_ldVxK_of_lowestKey_none x h, exec_ldVxK_of_lowestKey_none (s := s.withoutLogs) x h]; rfl
    · rw [exec_ldVxK_of_lowestKey_some x h, exec_ldVxK_of_lowestKey_some (s := s.withoutLogs) x h]; rfl
  case drw x y n =>
    have hread : s.withoutLogs.mem.read s.withoutLogs.i.toNat n.toNat = s.mem.read s.i.toNat n.toNat := rfl
    change withoutLogs (execDrw x y n s) = withoutLogs (execDrw x y n s.withoutLogs)
    rw [execDrw, execDrw, hread]
    rcases s.mem.read s.i.toNat n.toNat with _ | bytes
    · rfl
    · refine congrArg Host.Outcome.next ?_
      rw [State.withoutLogs_foldl State.withoutLogs_plot]
      exact (State.withoutLogs_foldl State.withoutLogs_plot _ (s.withoutLogs.setV vf 0)).symm
  case ldRegs x =>
    have hread : s.withoutLogs.mem.read s.withoutLogs.i.toNat (x.toNat + 1) = s.mem.read s.i.toNat (x.toNat + 1) := rfl
    change withoutLogs (execLdRegs x s) = withoutLogs (execLdRegs x s.withoutLogs)
    rw [execLdRegs, execLdRegs, hread]
    rcases s.mem.read s.i.toNat (x.toNat + 1) with _ | bytes
    · rfl
    · exact congrArg Host.Outcome.next (s.withoutLogs_setVs 0 bytes)
  all_goals rfl

/-! ### The cycle, the operations and the ticks -/

theorem readsNoLogs_runWord (w : Word) : ReadsNoLogs (runWord w) := by
  intro s
  unfold runWord
  split
  · exact readsNoLogs_exec _ s
  · rfl
  · rfl

theorem readsNoLogs_fetchAndRun : ReadsNoLogs fetchAndRun := by
  intro s
  have hfetch : fetchAt s.withoutLogs.mem s.withoutLogs.pc.toNat = fetchAt s.mem s.pc.toNat := rfl
  rw [fetchAndRun, fetchAndRun, hfetch]
  rcases fetchAt s.mem s.pc.toNat with _ | w
  · rfl
  · change withoutLogs (runWord w s.advance) = withoutLogs (runWord w s.withoutLogs.advance)
    have hadvance : s.advance.withoutLogs = s.withoutLogs.advance.withoutLogs := rfl
    rw [readsNoLogs_runWord, hadvance, ← readsNoLogs_runWord]

theorem State.withoutLogs_clearMarker (s : State) : s.withoutLogs.clearMarker = s.clearMarker.withoutLogs := by
  rw [State.clearMarker_eq, State.clearMarker_eq]; rfl

theorem readsNoLogs_cycle : ReadsNoLogs cycle := by
  intro s
  refine withoutLogs_ite_congr (c := s.overflowed = true) rfl ?_
  refine withoutLogs_ite_congr (c := s.breaks = true) rfl ?_
  rw [State.withoutLogs_clearMarker]
  exact readsNoLogs_fetchAndRun _

theorem readsNoLogs_hostStep : ReadsNoLogs hostStep := by
  intro s
  refine withoutLogs_ite_congr (c := s.sched = .running) rfl ?_
  obtain ⟨t, ht, -⟩ := cycle_cycled s
  obtain ⟨u, hu, -⟩ := cycle_cycled s.withoutLogs
  have h : withoutLogs (.next t) = withoutLogs (.next u) := by rw [← ht, ← hu]; exact readsNoLogs_cycle s
  rw [ht, hu]
  exact h

theorem readsNoLogs_hostOp (op : HostOp) : ReadsNoLogs (hostOp op) := by
  intro s
  cases op
  case step => exact readsNoLogs_hostStep s
  case loadROM | reset | bpSet | peek => exact withoutLogs_ite_congr rfl rfl
  case run => exact withoutLogs_ite_congr rfl (withoutLogs_ite_congr rfl rfl)
  case bpRemove => exact withoutLogs_ite_congr (withoutLogs_ite_congr rfl rfl) rfl
  case setKeyDown => exact withoutLogs_dite_congr (fun _ => rfl) fun _ => rfl
  case stop => exact withoutLogs_next_ite_congr rfl rfl
  case changeSpeed => exact withoutLogs_ite_congr (withoutLogs_next_ite_congr rfl rfl) rfl
  case bpClear | bpList => rfl

theorem State.withoutLogs_tickDelay (s : State) : s.tickDelay.withoutLogs = s.withoutLogs.tickDelay.withoutLogs := by
  rw [State.tickDelay_eq, State.tickDelay_eq]; rfl

theorem State.withoutLogs_tickSound (s : State) : s.tickSound.withoutLogs = s.withoutLogs.tickSound.withoutLogs := by
  rw [State.tickSound_eq, State.tickSound_eq]; rfl

theorem State.withoutLogs_timerTick (s : State) : (timerTick s).withoutLogs = (timerTick s.withoutLogs).withoutLogs := by
  rw [timerTick, timerTick, State.withoutLogs_tickSound, State.withoutLogs_tickDelay, ← State.withoutLogs_tickSound]

theorem readsNoLogs_takeInput (e : Input) : ReadsNoLogs (takeInput e) := by
  intro s
  cases e
  case cycleTick => exact withoutLogs_ite_congr (c := s.sched = .running) (readsNoLogs_cycle s) rfl
  case timerTick => exact withoutLogs_next_ite_congr s.withoutLogs_timerTick rfl
  case host op => exact readsNoLogs_hostOp op s

theorem readsNoLogs_step : ReadsNoLogs step := by
  intro s
  have hnext : s.withoutLogs.nextInput = s.nextInput := rfl
  rw [step, step, hnext]
  rcases s.nextInput with _ | e
  · rfl
  · exact readsNoLogs_takeInput e s.popInput

/-- Settles O9: both states step as their common state without logs does. -/
theorem logsAreNeverRead : Obligations.LogsAreNeverRead := by
  intro s s' h
  rw [readsNoLogs_step s, readsNoLogs_step s', h]

end Sys2Proof.Machine
end

section
/-! The timer tick, the host's operations one by one, and the end of a run on a jump to itself (60_exceptions.md R243 to R245;
46_host_ops.md R201 to R213; 70_reset_and_hazards.md R283). -/

namespace Sys2Proof.Machine

open Sys2Proof.Statements

/-! ### Ticks -/

/-- The tick as one update: DT, then ST with its event (R243, R244). -/
theorem timerTick_eq (s : State) :
    timerTick s = { s with
      dt := BitVec.ofNat 8 (s.dt.toNat - 1)
      st := BitVec.ofNat 8 (s.st.toNat - 1)
      out := s.out ++ (if s.st.toNat = 0 then [] else if s.st.toNat = 1 then [.toneOff] else [.toneOn])
      trace := s.trace ++ (if s.dt.toNat = 0 then [] else [.dt]) ++ (if s.st.toNat = 0 then [] else [.st]) } := by
  rw [timerTick, State.tickSound_eq, State.tickDelay_eq]

theorem step_of_timerTick {s : State} {rest : List Input} (h : s.inputs = .timerTick :: rest) :
    step s = .next (if s.sched = .running then timerTick { s with inputs := rest } else { s with inputs := rest }) := by
  rw [step_of_inputs h, State.popInput, h]
  rfl

theorem byte_pred_toNat (b : Byte) : (BitVec.ofNat 8 (b.toNat - 1)).toNat = b.toNat - 1 := by
  have := b.isLt
  rw [BitVec.toNat_ofNat]; omega

theorem timerTick_dt_toNat (s : State) : (timerTick s).dt.toNat = s.dt.toNat - 1 := by
  rw [timerTick_eq]; exact byte_pred_toNat s.dt

theorem timerTick_st_toNat (s : State) : (timerTick s).st.toNat = s.st.toNat - 1 := by
  rw [timerTick_eq]; exact byte_pred_toNat s.st

/-- A tick of a sounding timer gives one event (R244). -/
theorem timerTick_out (s : State) (h : s.st.toNat ≠ 0) :
    (timerTick s).out = s.out ++ [if s.st.toNat = 1 then .toneOff else .toneOn] := by
  simp only [timerTick_eq, if_neg h]
  split <;> rfl

/-- What one tick of a running machine leaves for the next. -/
theorem exists_step_of_timerTick {s : State} {rest : List Input} (hs : s.sched = .running)
    (hi : s.inputs = .timerTick :: rest) :
    ∃ u, step s = .next u ∧ u.sched = .running ∧ u.inputs = rest ∧ u.dt.toNat = s.dt.toNat - 1 ∧
      u.st.toNat = s.st.toNat - 1 ∧
      (s.st.toNat ≠ 0 → u.out = s.out ++ [if s.st.toNat = 1 then .toneOff else .toneOn]) := by
  refine ⟨timerTick { s with inputs := rest }, ?_, ?_, ?_, timerTick_dt_toNat _, timerTick_st_toNat _,
    timerTick_out { s with inputs := rest }⟩
  · rw [step_of_timerTick hi, if_pos hs]
  · rw [timerTick_frame]; exact hs
  · rw [timerTick_frame]

/-- Settles O48, by induction on the number of ticks, one tick of which is a step. -/
theorem ticksCountDown : Obligations.TicksCountDown := by
  intro s k hs hi
  induction k generalizing s with
  | zero => exact ⟨s, rfl, rfl, rfl, fun _ h => absurd h (Nat.lt_irrefl 0)⟩
  | succ k ih =>
    obtain ⟨u, hstep, hus, hui, hudt, hust, huout⟩ := exists_step_of_timerTick hs hi
    obtain ⟨t, hrun, hdt, hst, hout⟩ := ih u hus hui
    refine ⟨t, (run_succ_of_next k hstep).trans hrun, by omega, by omega, fun hk _ => ?_⟩
    rw [huout (by omega)] at hout
    cases k with
    | zero =>
      rw [← Host.Outcome.next.inj hrun, huout (by omega), if_pos hk, Nat.zero_add, Nat.sub_self, List.replicate_zero,
        List.append_nil]
    | succ k =>
      rw [hout (by omega) (by omega), if_neg (by omega)]
      simp [List.replicate_succ]

/-! ### Operations of the host -/

/-- Settles O51: each operation looks at SCHED and at the sign of the rate, and at nothing else. -/
theorem runStopChangeSpeed : Obligations.RunStopChangeSpeed := by
  refine fun s q => ⟨fun hq hs => ⟨?_, ?_, ?_⟩, fun hq hs => ⟨?_, ?_⟩⟩
  · exact (if_neg hs).trans (if_pos hq)
  · exact congrArg Host.Outcome.next (if_neg hs)
  · exact (if_pos hq).trans (congrArg Host.Outcome.next (if_neg hs))
  · exact congrArg Host.Outcome.next (if_pos hs)
  · exact (if_pos hq).trans (congrArg Host.Outcome.next (if_pos hs))

/-- Settles O55: the address is within memory, so the accessor answers the byte there. -/
theorem memoryAccessorReads : Obligations.MemoryAccessorReads := fun _ _ ha => if_pos (Nat.lt_succ_of_le ha)

/-- A read at an address that was stored at gives the byte stored there. -/
theorem Memory.get_putAll_at (m : Memory) (a : Nat) {bs : List Byte} {k : Nat} (hk : k < bs.length) :
    (m.putAll a bs).get (a + k) = bs[k] := by
  rw [Memory.get_putAll, if_pos (Nat.le_add_right ..), Nat.add_sub_cancel_left, List.getElem?_eq_getElem hk,
    Option.getD_some]

/-- Settles O49: the bytes at 0x200 all exist, and a read sees the byte stored at its address. -/
theorem loadRom : Obligations.LoadRom := fun s _ =>
  ⟨fun hlen => if_pos hlen, fun hlen => ⟨_, if_neg (Nat.not_lt.2 hlen), fun _ hk => Memory.get_putAll_at s.mem romBase hk,
    fun _ ha => Memory.get_putAll_outside s.mem ha, rfl, rfl⟩⟩

/-! ### The end of a run on a jump to itself -/

/-- The word at the end of form (a) exists, and it is the jump to its own address. -/
theorem State.atSelfJump.word {s : State} (h : s.atSelfJump) :
    s.pc.toNat ≤ 0xFFE ∧ decodesTo (wordAt s s.pc.toNat) (.jp (s.pc.setWidth 12)) := by
  obtain ⟨-, -, hword⟩ := h
  rw [fetchAt_eq] at hword
  unfold memSize at hword
  split_ifs at hword with hpc
  · exact ⟨by omega, Option.some.inj hword⟩
  · cases hword

/-- A cycle on a jump to itself moves the marker and the notices alone. -/
theorem State.atSelfJump.cycle {s : State} (h : s.atSelfJump) (hbp : ¬ (s.pc.toNat ∈ s.bp ∧ s.lastBp ≠ some s.pc)) :
    cycle s = .next { s with
      lastBp := if s.pc.toNat ∈ s.bp then s.lastBp else none, trace := s.trace ++ [.pc] ++ [.pc] } := by
  obtain ⟨hpc, hword⟩ := State.atSelfJump.word h
  have htarget : addrOf (s.pc.setWidth 12) = s.pc := by
    apply BitVec.eq_of_toNat_eq
    rw [addrOf_toNat, BitVec.toNat_setWidth]
    omega
  calc Machine.cycle s
    _ = exec (.jp (s.pc.setWidth 12)) (readyToExecute s) := cycle_of_decodesTo hpc hbp hword
    _ = .next ((readyToExecute s).setPc (addrOf (s.pc.setWidth 12))) := rfl
    _ = _ := by rw [htarget]; rfl

/-- `t` is `s` but for what an end leaves to change, and the marker was kept or PC is in no breakpoint. -/
structure RestsAt (s t : State) : Prop where
  frame : t = { s with
    dt := t.dt, st := t.st, key := t.key, lastBp := t.lastBp, inputs := s.inputs.tail
    out := t.out, trace := t.trace, results := t.results }
  marker : s.pc.toNat ∈ s.bp → t.lastBp = s.lastBp

theorem RestsAt.atSelfJump {s t : State} (h : RestsAt s t) (hend : s.atSelfJump) : t.atSelfJump := by
  rw [h.frame]
  exact hend

theorem RestsAt.not_stopped {s t : State} (h : RestsAt s t) (hbp : ¬ (s.pc.toNat ∈ s.bp ∧ s.lastBp ≠ some s.pc)) :
    ¬ (t.pc.toNat ∈ t.bp ∧ t.lastBp ≠ some t.pc) := by
  have hpc : t.pc = s.pc := by rw [h.frame]
  have hset : t.bp = s.bp := by rw [h.frame]
  rw [hpc, hset]
  rintro ⟨hmem, hlast⟩
  exact hbp ⟨hmem, h.marker hmem ▸ hlast⟩

/-- The step of a run that has reached its end, event by event. -/
theorem restsAt_of_step {s t : State} (hend : s.atSelfJump) (hbp : ¬ (s.pc.toNat ∈ s.bp ∧ s.lastBp ≠ some s.pc))
    (hnext : s.nextInput = none ∨ s.nextInput = some .cycleTick ∨ s.nextInput = some .timerTick ∨
      s.nextInput = some (.host .step) ∨ ∃ k d, s.nextInput = some (.host (.setKeyDown k d)))
    (h : step s = .next t) : RestsAt s t := by
  have hcycle := State.atSelfJump.cycle (s := s.popInput) hend hbp
  rcases hnext with hn | hn | hn | hn | ⟨k, d, hn⟩ <;> rw [step, hn] at h
  · -- no event
    obtain ⟨hi, -⟩ := nextInput_eq_none hn
    cases h
    exact ⟨by rw [hi, List.tail_nil, ← hi], fun _ => rfl⟩
  · -- a cycle tick
    change cycleTick s.popInput = .next t at h
    unfold cycleTick at h
    split_ifs at h
    · rw [hcycle] at h; cases h
      exact ⟨rfl, fun hmem => if_pos hmem⟩
    · cases h; exact ⟨rfl, fun _ => rfl⟩
  · -- a timer tick
    change tickTimers s.popInput = .next t at h
    unfold tickTimers at h
    split_ifs at h <;> cases h
    · rw [timerTick_eq]; exact ⟨rfl, fun _ => rfl⟩
    · exact ⟨rfl, fun _ => rfl⟩
  · -- `step()`
    change hostOp .step s.popInput = .next t at h
    by_cases hs : s.popInput.sched = .running
    · rw [hostOp_step_of_running hs] at h; cases h
      exact ⟨rfl, fun _ => rfl⟩
    · rw [hostOp_step_of_cycle hs hcycle] at h; cases h
      exact ⟨rfl, fun hmem => if_pos hmem⟩
  · -- a key
    change hostSetKeyDown k d s.popInput = .next t at h
    unfold hostSetKeyDown at h
    split_ifs at h
    cases h
    exact ⟨rfl, fun _ => rfl⟩

/-- Settles O58: what may change at an end decides neither the jump to itself nor whether a breakpoint stops it. -/
theorem selfJumpIsAnEnd : Obligations.SelfJumpIsAnEnd := fun _ _ hend hbp hnext h =>
  have hrests := restsAt_of_step hend hbp hnext h
  ⟨hrests.atSelfJump hend, hrests.not_stopped hbp, hrests.frame⟩

end Sys2Proof.Machine

namespace Sys2Proof

open Sys2Proof.Machine

/-- Settles O47: the step does the tick, as `timerTick_eq` writes it out, exactly where the machine is running. -/
theorem timerTick : Obligations.TimerTick := by
  intro s rest h
  rw [step_of_timerTick h, timerTick_eq]
  exact ⟨fun hs => congrArg Host.Outcome.next (if_pos hs), fun hs => congrArg Host.Outcome.next (if_neg hs)⟩

/-- Settles O50: `reset` writes the power-on value of every field but those that R202 leaves. -/
theorem hostReset : Obligations.HostReset := fun _ _ hn => ⟨_, if_neg (Nat.not_lt.2 hn), rfl⟩

end Sys2Proof
end

section
/-! CALL and RET, the register skips, the key skips (41_flow.md R101, R103, R106, R107; 45_keypad_timer.md R180, R181). -/

namespace Sys2Proof.Machine

open Sys2Proof.Statements

/-! ### The return stack -/

theorem byte_succ_eq_ofNat (b : Byte) : b + 1 = BitVec.ofNat 8 (b.toNat + 1) := by
  rw [BitVec.ofNat_add, BitVec.ofNat_toNat, BitVec.setWidth_eq]
  rfl

theorem exec_call_of_lt {s : State} (nnn : Addr12) (h : s.sp.toNat < 16) :
    exec (.call nnn) s = .next { s with
      stack := s.stack.set s.sp.toNat s.pc h
      sp := BitVec.ofNat 8 (s.sp.toNat + 1)
      pc := BitVec.ofNat 16 nnn.toNat
      trace := s.trace ++ [.stack s.sp.toNat, .sp, .pc] } :=
  calc exec (.call nnn) s
    _ = .next (((s.setStack ⟨s.sp.toNat, h⟩ s.pc).setSp (s.sp + 1)).setPc (addrOf nnn)) := dif_pos h
    _ = _ := by
      rw [addrOf_eq_ofNat, byte_succ_eq_ofNat, State.setPc, State.setSp, State.setStack]
      simp only [List.append_assoc, List.cons_append, List.nil_append]

theorem exec_call_of_ge {s : State} (nnn : Addr12) (h : 16 ≤ s.sp.toNat) :
    exec (.call nnn) s = .next (faulted s .stackoverflow) :=
  calc exec (.call nnn) s
    _ = raise .stackoverflow s := dif_neg (Nat.not_lt.2 h)
    _ = _ := raise_eq_faulted s rfl

/-- RET with `k + 1` addresses held pops the one that was pushed last, entry `k`. -/
theorem exec_ret_of_succ {s : State} {k : Nat} (hk : k < 16) (h : s.sp.toNat = k + 1) :
    exec .ret s = .next { s with sp := BitVec.ofNat 8 k, pc := s.stack[k], trace := s.trace ++ [.sp, .pc] } := by
  have hsp : s.sp - 1 = BitVec.ofNat 8 k := by
    apply BitVec.eq_of_toNat_eq
    rw [byte_sub_eq_ofNat, BitVec.toNat_ofNat, BitVec.toNat_ofNat, h]
    change (k + 1 + 256 - 1) % 256 % 256 = k % 256
    omega
  calc exec .ret s
    _ = .next ((s.setSp (s.sp - 1)).setPc (s.stack[s.sp.toNat - 1]'(by omega))) := dif_pos (by omega)
    _ = _ := by
      simp only [hsp, h, Nat.add_sub_cancel, State.setPc, State.setSp, List.append_assoc, List.singleton_append]

theorem exec_ret_of_empty_or_above {s : State} (h : s.sp.toNat = 0 ∨ 16 < s.sp.toNat) :
    exec .ret s = .next (faulted s .stackunderflow) :=
  calc exec .ret s
    _ = raise .stackunderflow s := dif_neg (by omega)
    _ = _ := raise_eq_faulted s rfl

/-- Settles O21: class 2 is dispatched on its class alone, and the test of SP comes before every write. -/
theorem callPushesAndJumps : Obligations.CallPushesAndJumps := fun _ nnn =>
  ⟨decodesTo_of_select (fieldsOf_ofAddr 0x2 nnn) rfl, exec_call_of_lt nnn, exec_call_of_ge nnn⟩

/-- Settles O22: with SP in 1 to 16 the entry popped is SP - 1; the test of SP comes before every write. -/
theorem retPopsIntoPc : Obligations.RetPopsIntoPc := fun s =>
  ⟨decodesTo_of_select rfl rfl, fun _ => exec_ret_of_succ (k := s.sp.toNat - 1) (by omega) (by omega),
    exec_ret_of_empty_or_above⟩

/-- Settles O23: CALL writes entry SP and RET reads that entry, so the older ones are not touched. -/
theorem retUndoesCall : Obligations.RetUndoesCall := by
  intro s nnn p hsp
  have hheld : (BitVec.ofNat 8 (s.sp.toNat + 1)).toNat = s.sp.toNat + 1 := by rw [BitVec.toNat_ofNat]; omega
  refine ⟨_, _, exec_call_of_lt nnn hsp, exec_ret_of_succ hsp hheld, ?pc, ?sp, fun k hk => ?older⟩
  case pc => exact Vector.getElem_set_self hsp
  case sp => exact (BitVec.ofNat_toNat 8 s.sp).trans (BitVec.setWidth_eq _)
  case older => exact Vector.getElem_set_ne hsp k.isLt (Nat.ne_of_gt hk)

/-! ### Skips -/

theorem exec_seReg (x y n : Nibble) (s : State) :
    exec (.seReg x y n) s = .next (skipped (decide ((s.getV x).toNat = (s.getV y).toNat)) s) :=
  calc exec (.seReg x y n) s
    _ = skipIf (s.getV x == s.getV y) s := rfl
    _ = _ := by rw [beq_eq_decide_toNat_eq, skipIf_eq_skipped]

theorem exec_sneReg (x y n : Nibble) (s : State) :
    exec (.sneReg x y n) s = .next (skipped (decide ((s.getV x).toNat ≠ (s.getV y).toNat)) s) :=
  calc exec (.sneReg x y n) s
    _ = skipIf (s.getV x != s.getV y) s := rfl
    _ = _ := by rw [bne_eq_decide_toNat_ne, skipIf_eq_skipped]

/-- Settles O25: the low nibble is decoded but neither dispatched on nor read (R67). -/
theorem registerSkips : Obligations.RegisterSkips := fun s x y n =>
  ⟨decodesTo_of_select (fieldsOf_ofNibbles 0x5 x y n) rfl, exec_seReg x y n s,
    decodesTo_of_select (fieldsOf_ofNibbles 0x9 x y n) rfl, exec_sneReg x y n s⟩

theorem withKey_of_lt {x : Nibble} {s : State} (h : (s.getV x).toNat < 16) (f : Bool → Result) :
    withKey x s f = f (s.key[(s.getV x).toNat]'h) :=
  dif_pos h

theorem withKey_of_gt {x : Nibble} {s : State} (h : 15 < (s.getV x).toNat) (f : Bool → Result) :
    withKey x s f = .next (faulted s .keyrange) :=
  (dif_neg (by omega)).trans (raise_eq_faulted s rfl)

theorem exec_skp (x : Nibble) (s : State) : exec (.skp x) s = withKey x s fun down => skipIf down s := rfl

theorem exec_sknp (x : Nibble) (s : State) : exec (.sknp x) s = withKey x s fun down => skipIf (!down) s := rfl

/-- Settles O44: both skips look the key up in the same way. -/
theorem keySkips : Obligations.KeySkips := by
  intro s x
  have hskp : decodesTo (ofXnn 0xE x 0x9E) (.skp x) := decodesTo_of_select (fieldsOf_ofXnn 0xE x 0x9E) rfl
  have hsknp : decodesTo (ofXnn 0xE x 0xA1) (.sknp x) := decodesTo_of_select (fieldsOf_ofXnn 0xE x 0xA1) rfl
  refine ⟨hskp, hsknp, fun h => ?key, fun h => ?noKey⟩
  case key =>
    rw [exec_skp, exec_sknp, withKey_of_lt h, withKey_of_lt h]
    exact ⟨skipIf_eq_skipped .., skipIf_eq_skipped ..⟩
  case noKey =>
    rw [exec_skp, exec_sknp, withKey_of_gt h, withKey_of_gt h]
    exact ⟨rfl, rfl⟩

end Sys2Proof.Machine
end

section
/-! The shifts, the random byte and the writes of VF (10_state.md R10; 42_alu.md R128, R130, R131, R133). -/

namespace Sys2Proof.Machine

open Sys2Proof.Statements

theorem getV_wroteV (s : State) (r q : Nibble) (b : Byte) :
    (wroteV s r b).getV q = if r = q then b else s.getV q := by
  rw [← setV_eq_wroteV, State.getV_setV]

@[simp] theorem getV_wroteV_same (s : State) (r : Nibble) (b : Byte) : (wroteV s r b).getV r = b := by
  rw [getV_wroteV, if_pos rfl]

/-- Settles O26: a write of the register file is a write of one of its 16 entries. -/
theorem registersAreIndependent : Obligations.RegistersAreIndependent := by
  intro s r q b
  simp only [getV_wroteV, eq_comm]

theorem lsbFlag_eq_ofNat (a : Byte) : lsbFlag a = BitVec.ofNat 8 (a.toNat % 2) := by
  have hand : a.toNat &&& 1 = a.toNat % 2 := Nat.and_one_is_mod _
  apply BitVec.eq_of_toNat_eq
  rw [lsbFlag, BitVec.toNat_and, BitVec.toNat_ofNat]
  change a.toNat &&& 1 = _
  omega

theorem shr_eq_ofNat (a : Byte) : a >>> 1 = BitVec.ofNat 8 (a.toNat / 2) := by
  have := a.isLt
  apply BitVec.eq_of_toNat_eq
  rw [BitVec.toNat_ushiftRight, BitVec.toNat_ofNat, Nat.shiftRight_eq_div_pow]
  omega

theorem msbFlag_eq_ofNat (a : Byte) : msbFlag a = BitVec.ofNat 8 (a.toNat / 128) := by
  have := a.isLt
  have hand : a.toNat / 128 &&& 1 = a.toNat / 128 % 2 := Nat.and_one_is_mod _
  apply BitVec.eq_of_toNat_eq
  rw [msbFlag, BitVec.toNat_and, BitVec.toNat_ushiftRight, BitVec.toNat_ofNat, Nat.shiftRight_eq_div_pow]
  change a.toNat / 128 &&& 1 = _
  omega

theorem shl_eq_ofNat (a : Byte) : a <<< 1 = BitVec.ofNat 8 (a.toNat * 2 % 256) := by
  apply BitVec.eq_of_toNat_eq
  rw [BitVec.toNat_shiftLeft, BitVec.toNat_ofNat, Nat.shiftLeft_eq]
  omega

theorem exec_shr (x y : Nibble) (s : State) :
    exec (.shr x y) s = .next
      (wroteV (wroteV s 15 (BitVec.ofNat 8 ((s.getV x).toNat % 2))) x (BitVec.ofNat 8 ((s.getV x).toNat / 2))) :=
  calc exec (.shr x y) s
    _ = .next ((s.setV vf (lsbFlag (s.getV x))).setV x (s.getV x >>> 1)) := rfl
    _ = _ := by rw [setV_eq_wroteV, setV_eq_wroteV, lsbFlag_eq_ofNat, shr_eq_ofNat, vf]

theorem exec_shl (x y : Nibble) (s : State) :
    exec (.shl x y) s = .next
      (wroteV (wroteV s 15 (BitVec.ofNat 8 ((s.getV x).toNat / 128))) x
        (BitVec.ofNat 8 ((s.getV x).toNat * 2 % 256))) :=
  calc exec (.shl x y) s
    _ = .next ((s.setV vf (msbFlag (s.getV x))).setV x (s.getV x <<< 1)) := rfl
    _ = _ := by rw [setV_eq_wroteV, setV_eq_wroteV, msbFlag_eq_ofNat, shl_eq_ofNat, vf]

theorem exec_rnd (x : Nibble) (nn : Byte) (s : State) :
    exec (.rnd x nn) s = .next (wroteV { s with rndCount := s.rndCount + 1 } x (Config.rnd s.rndCount &&& nn)) :=
  calc exec (.rnd x nn) s
    _ = .next (s.drawn.setV x (s.rndByte &&& nn)) := rfl
    _ = _ := by rw [setV_eq_wroteV, State.drawn, State.rndByte]

/-- Settles O31: the lost bit and the shifted value are a remainder and a quotient of VX before the instruction. -/
theorem shiftsSetLostBit : Obligations.ShiftsSetLostBit :=
  fun s x y => ⟨decodesTo_of_select8 rfl, exec_shr x y s, decodesTo_of_select8 rfl, exec_shl x y s⟩

/-- Settles O33: any byte AND 0 is 0. -/
theorem randomIsMasked : Obligations.RandomIsMasked := by
  refine fun s x nn => ⟨decodesTo_of_select (fieldsOf_ofXnn 0xC x nn) rfl, exec_rnd x nn s, fun t ht => ?_⟩
  rw [exec_rnd] at ht
  cases ht
  rw [getV_wroteV_same]
  exact BitVec.and_zero

/-- Settles O32: VF holds what was written to it last, the flag after the arithmetic and the result after the shifts. -/
theorem destinationVfTable : Obligations.DestinationVfTable := by
  intro s y nn
  have hlt := (s.getV 15).isLt
  refine ⟨⟨_, exec_ldImm 15 nn s, getV_wroteV_same ..⟩, ⟨_, exec_addImm 15 nn s, ?_⟩,
    ⟨_, exec_ldReg 15 y s, getV_wroteV_same ..⟩,
    ⟨s.setV 15 (s.getV 15 ||| s.getV y), rfl, State.getV_setV_same ..⟩,
    ⟨s.setV 15 (s.getV 15 &&& s.getV y), rfl, State.getV_setV_same ..⟩,
    ⟨s.setV 15 (s.getV 15 ^^^ s.getV y), rfl, State.getV_setV_same ..⟩,
    ⟨_, exec_addReg 15 y s, getV_wroteV_same ..⟩, ⟨_, exec_subReg 15 y s, getV_wroteV_same ..⟩,
    ⟨_, exec_subnReg 15 y s, getV_wroteV_same ..⟩, ⟨_, exec_shr 15 y s, ?_⟩, ⟨_, exec_shl 15 y s, ?_⟩,
    ⟨_, exec_rnd 15 nn s, getV_wroteV_same ..⟩⟩
  all_goals
    rw [getV_wroteV_same, BitVec.toNat_ofNat]
    omega

end Sys2Proof.Machine
end

section
/-! The power-on values (10_state.md R30): memory reads as unlisted, the font at 0x050 and 0 elsewhere. -/

namespace Sys2Proof.Machine

theorem length_font : Config.font.length = 80 := rfl

theorem unlisted_outside_font {a : Nat} (h : a < 0x050 ∨ 0x0A0 ≤ a) : unlisted a = 0 := by
  unfold unlisted fontBase
  split
  · exact List.getD_eq_default _ _ (by rw [length_font]; omega)
  · rfl

theorem unlisted_in_font {k : Nat} (h : k < 80) : some (unlisted (0x050 + k)) = Config.font[k]? := by
  have hk : k < Config.font.length := by rw [length_font]; exact h
  rw [unlisted, fontBase, if_pos (Nat.le_add_right ..), Nat.add_sub_cancel_left, List.getD_eq_getElem _ _ hk,
    List.getElem?_eq_getElem hk]

/-- Settles O6: with no byte listed, memory reads as unlisted, and every other field is written out in `State.reset`. -/
theorem powerOnValues : Obligations.PowerOnValues := by
  have hcell : ∀ x y, State.reset.cell x y = false := fun x y => by
    simp only [State.cell, State.reset, Vector.getElem_replicate]
  have hv : ∀ r, State.reset.getV r = 0 := fun r => by simp only [State.getV, State.reset, Vector.getElem_replicate]
  refine ⟨hv, rfl, rfl, rfl, fun w hw => ?_, rfl, rfl, fun a _ ha => unlisted_outside_font ha,
    fun k hk => unlisted_in_font hk, hcell, fun d hd => ?_, rfl, rfl, rfl, rfl⟩
  · rw [State.reset, Vector.toList_replicate] at hw
    exact List.eq_of_mem_replicate hw
  · rw [State.reset, Vector.toList_replicate] at hd
    exact List.eq_of_mem_replicate hd

end Sys2Proof.Machine
end

section
/-! The transfers between registers and memory at I, and the fetch of what they stored (43_index_memory.md R153 to R155;
20_memory.md R41, R50). -/

namespace Sys2Proof.Machine

open Sys2Proof.Statements

/-! ### Stores at I -/

theorem storeAtI_of_le {bs : List Byte} {s : State} (h : s.i.toNat + bs.length ≤ memSize) :
    storeAtI bs s = .next (s.storeBytes s.i.toNat bs) := by
  rcases storeAtI_cases bs s with ⟨-, he⟩ | ⟨⟨-, hgt⟩, -⟩
  · exact he
  · omega

theorem storeAtI_of_gt {bs : List Byte} {s : State} (hbs : bs ≠ []) (h : memSize < s.i.toNat + bs.length) :
    storeAtI bs s = .next (faulted s .memrange) := by
  rcases storeAtI_cases bs s with ⟨hle, -⟩ | ⟨-, he⟩
  · exact absurd hle (by simp only [hbs, false_or]; omega)
  · rw [he, s.halt_eq_faulted rfl]

theorem exec_ldB (x : Nibble) (s : State) : exec (.ldB x) s = storeAtI (digitsOf s x) s := rfl

theorem exec_stRegs (x : Nibble) (s : State) : exec (.stRegs x) s = storeAtI (registersTo s x) s := rfl

theorem exec_ldB_of_le {s : State} (x : Nibble) (h : s.i.toNat + 2 ≤ 0xFFF) :
    exec (.ldB x) s = .next (s.storeBytes s.i.toNat (digitsOf s x)) :=
  (exec_ldB x s).trans (storeAtI_of_le (Nat.succ_le_succ h))

theorem length_registersTo (s : State) (x : Nibble) : (registersTo s x).length = x.toNat + 1 := length_regsUpTo s x

theorem registersTo_ne_nil (s : State) (x : Nibble) : registersTo s x ≠ [] :=
  List.ne_nil_of_length_pos (by rw [length_registersTo]; exact Nat.succ_pos _)

theorem exec_stRegs_of_le {s : State} (x : Nibble) (h : s.i.toNat + x.toNat ≤ 0xFFF) :
    exec (.stRegs x) s = .next (s.storeBytes s.i.toNat (registersTo s x)) :=
  (exec_stRegs x s).trans (storeAtI_of_le (by rw [length_registersTo]; exact Nat.succ_le_succ h))

/-- A byte holds each decimal digit of a byte. -/
theorem digit_toNat {n : Nat} (h : n < 256) : (BitVec.ofNat 8 n).toNat = n := by
  rw [BitVec.toNat_ofNat, Nat.mod_eq_of_lt h]

/-- Settles O35: the three digits are stored as one block of three bytes. -/
theorem bcdStoresDigits : Obligations.BcdStoresDigits := by
  intro s x
  have hvx := (s.getV x).isLt
  have hread : ∀ k (hk : k < 3), (s.storeBytes s.i.toNat (digitsOf s x)).mem.get (s.i.toNat + k) = (digitsOf s x)[k] :=
    fun k hk => Memory.get_putAll_at s.mem s.i.toNat hk
  refine ⟨decodesTo_of_selectF rfl, fun hi => ⟨_, exec_ldB_of_le x hi, ?hundreds, ?tens, ?ones, fun a ha => ?outside, rfl⟩,
    fun hi => ?fault⟩
  case hundreds => exact (congrArg BitVec.toNat (hread 0 (by decide))).trans (digit_toNat (by omega))
  case tens => exact (congrArg BitVec.toNat (hread 1 (by decide))).trans (digit_toNat (by omega))
  case ones => exact (congrArg BitVec.toNat (hread 2 (by decide))).trans (digit_toNat (by omega))
  case outside => exact Memory.get_putAll_outside s.mem (by change a < _ ∨ _ + 3 ≤ a; omega)
  case fault => exact (exec_ldB x s).trans (storeAtI_of_gt (List.cons_ne_nil _ _) (Nat.succ_lt_succ hi))

theorem nibble_ofNat_toNat (r : Nibble) : BitVec.ofNat 4 r.toNat = r :=
  (BitVec.ofNat_toNat 4 r).trans (BitVec.setWidth_eq r)

/-- The byte that FX55 stores for each register it stores (R154). -/
theorem getElem?_registersTo {s : State} {x r : Nibble} (h : r.toNat ≤ x.toNat) :
    (registersTo s x)[r.toNat]? = some (s.getV r) :=
  (getElem?_regsUpTo s x h).trans (by rw [nibble_ofNat_toNat])

theorem get_putAll_registersTo (m : Memory) (a : Nat) {s : State} {x r : Nibble} (h : r.toNat ≤ x.toNat) :
    (m.putAll a (registersTo s x)).get (a + r.toNat) = s.getV r := by
  rw [Memory.get_putAll, if_pos (Nat.le_add_right ..), Nat.add_sub_cancel_left, getElem?_registersTo h, Option.getD_some]

/-- Settles O36: the registers are stored as one block of X + 1 bytes. -/
theorem blockStore : Obligations.BlockStore := by
  refine fun s x => ⟨decodesTo_of_selectF rfl, fun hi => ⟨_, exec_stRegs_of_le x hi, fun r hr => ?stored, fun a ha => ?outside,
    ?frame⟩, fun hi => ?fault⟩
  case stored => exact get_putAll_registersTo s.mem s.i.toNat hr
  case outside => exact Memory.get_putAll_outside s.mem (by rw [length_registersTo]; omega)
  case frame => rw [State.storeBytes, length_registersTo]
  case fault =>
    refine (exec_stRegs x s).trans (storeAtI_of_gt (registersTo_ne_nil s x) ?_)
    rw [length_registersTo]
    exact Nat.succ_lt_succ hi

/-! ### Loads from I -/

/-- The bytes FX65 reads for V0 to VX (R155). -/
def bytesAtI (s : State) (x : Nibble) : List Byte := (List.range (x.toNat + 1)).map fun k => s.mem.get (s.i.toNat + k)

theorem length_bytesAtI (s : State) (x : Nibble) : (bytesAtI s x).length = x.toNat + 1 := by
  rw [bytesAtI, List.length_map, List.length_range]

theorem exec_ldRegs_of_le {s : State} (x : Nibble) (h : s.i.toNat + x.toNat ≤ 0xFFF) :
    exec (.ldRegs x) s = .next (s.setVs 0 (bytesAtI s x)) := by
  change execLdRegs x s = _
  rw [execLdRegs, Memory.read_of_inRange (.inr (Nat.succ_le_succ h)), bytesAtI]

theorem exec_ldRegs_of_gt {s : State} (x : Nibble) (h : 0xFFF < s.i.toNat + x.toNat) :
    exec (.ldRegs x) s = .next (faulted s .memrange) := by
  change execLdRegs x s = _
  rw [execLdRegs, Memory.read_eq_none (Nat.succ_ne_zero _) (Nat.succ_lt_succ h)]
  exact raise_eq_faulted s rfl

/-- A register after the block load: from memory up to VX, as before above it. -/
theorem getV_setVs_bytesAtI (s : State) (x r : Nibble) :
    (s.setVs 0 (bytesAtI s x)).getV r = if r.toNat ≤ x.toNat then s.mem.get (s.i.toNat + r.toNat) else s.getV r := by
  have hx : x.toNat < 16 := nibble_lt x
  have hlen := length_bytesAtI s x
  rw [State.getV_setVs _ _ _ (by omega), if_pos (Nat.zero_le _), Nat.sub_zero]
  by_cases hr : r.toNat ≤ x.toNat
  · rw [if_pos hr, List.getElem?_eq_getElem (by omega), Option.getD_some]
    simp only [bytesAtI, List.getElem_map, List.getElem_range]
  · rw [if_neg hr, List.getElem?_eq_none (by omega), Option.getD_none]

/-- Settles O37: the block of X + 1 bytes is read whole before the first register is written. -/
theorem blockLoad : Obligations.BlockLoad := by
  refine fun s x => ⟨decodesTo_of_selectF rfl, fun hi => ⟨_, exec_ldRegs_of_le x hi, fun r hr => ?loaded, fun r hr => ?kept,
    ?frame⟩, exec_ldRegs_of_gt x⟩
  case loaded => rw [getV_setVs_bytesAtI, if_pos hr]
  case kept => rw [getV_setVs_bytesAtI, if_neg (Nat.not_le.2 hr)]
  case frame =>
    have hx : x.toNat < 16 := nibble_lt x
    have hlen := length_bytesAtI s x
    have htrace := s.setVs_trace 0 (bytesAtI s x) (by omega)
    rw [hlen] at htrace
    simp only [Nat.zero_add] at htrace
    rw [← htrace]
    exact s.setVs_frame 0 (bytesAtI s x)

/-- Settles O38: the load reads, at the same I, what the store left there, whatever the registers hold. -/
theorem blockLoadUndoesBlockStore : Obligations.BlockLoadUndoesBlockStore := by
  intro s t x regs hi ht
  rw [exec_stRegs_of_le x hi] at ht
  cases ht
  refine ⟨_, exec_ldRegs_of_le x hi, fun r hr => ?_⟩
  rw [getV_setVs_bytesAtI, if_pos hr]
  exact get_putAll_registersTo s.mem s.i.toNat hr

/-! ### The fetch of what was stored -/

/-- Memory after a store at I, byte by byte (R50). -/
theorem storeBytes_get_eq_afterStore (s : State) (bs : List Byte) (a : Nat) :
    (s.storeBytes s.i.toNat bs).mem.get a = afterStore s bs a :=
  Memory.get_putAll s.mem s.i.toNat bs a

/-- A store at I leaves PC alone, and the next fetch reads the memory that the store left. -/
theorem fetchesStored_storeBytes {s : State} (hpc : s.pc.toNat ≤ 0xFFE) (bs : List Byte) :
    fetchesStored s (s.storeBytes s.i.toNat bs) bs := by
  refine ⟨rfl, ?fetch, fun i hi hbp => ?run⟩
  case fetch =>
    rw [fetchAt_eq, State.storeBytes_pc, if_pos (by unfold memSize; omega), storeBytes_get_eq_afterStore,
      storeBytes_get_eq_afterStore]
  case run =>
    refine cycle_of_decodesTo hpc hbp ?_
    rwa [wordAt, State.storeBytes_pc, storeBytes_get_eq_afterStore, storeBytes_get_eq_afterStore]

/-- Settles O39: both transfers are a store at I, to which `fetchesStored_storeBytes` applies. -/
theorem storedWordIsFetched : Obligations.StoredWordIsFetched := fun _ x hpc =>
  ⟨fun hi => ⟨_, exec_ldB_of_le x hi, fetchesStored_storeBytes hpc _⟩,
    fun hi => ⟨_, exec_stRegs_of_le x hi, fetchesStored_storeBytes hpc _⟩⟩

end Sys2Proof.Machine
end

section
/-! DXYN as a whole (44_display.md R171, R172): the cells it plots are those the sprite covers, each once. -/

namespace Sys2Proof.Machine

open Sys2Proof.Statements

/-- The cells that DXYN plots, in order. -/
def spritePixels (s : State) (x y n : Nibble) : List (Fin 64 × Fin 32) :=
  pixelsFrom (s.getV x) (s.getV y) 0 ((List.range n.toNat).map fun k => s.mem.get (s.i.toNat + k))

theorem spritePixels_nodup (s : State) (x y n : Nibble) : (spritePixels s x y n).Nodup :=
  pixelsFrom_nodup _ _ _ (Nat.lt_succ_iff.1 (nibble_lt n))

/-- Row by row, and in each row one cell for each set bit. -/
theorem spritePixels_eq (s : State) (x y n : Nibble) :
    spritePixels s x y n = (List.range n.toNat).flatMap fun r =>
      ((List.range 8).filter fun c => (s.mem.get (s.i.toNat + r)).getLsbD (7 - c)).map fun c =>
        (column (s.getV x) c, row (s.getV y) r) := by
  simp only [spritePixels, pixelsFrom_eq, setColumns_eq, Nat.zero_add]

theorem mem_spritePixels_iff (s : State) (x y n : Nibble) (cx : Fin 64) (cy : Fin 32) :
    (cx, cy) ∈ spritePixels s x y n ↔ covers s x y n cx cy := by
  have hcol : ∀ c, column (s.getV x) c = cx ↔ cx.val = ((s.getV x).toNat + c) % 64 := fun c => by
    rw [Fin.ext_iff, eq_comm, column]
  have hrow : ∀ r, row (s.getV y) r = cy ↔ cy.val = ((s.getV y).toNat + r) % 32 := fun r => by
    rw [Fin.ext_iff, eq_comm, row]
  simp only [spritePixels_eq, covers, List.mem_flatMap, List.mem_map, List.mem_filter, List.mem_range, Prod.mk.injEq, hcol,
    hrow, and_assoc]

theorem map_spritePixels_eq_pixelEvents (s : State) (x y n : Nibble) :
    (spritePixels s x y n).map (fun p => .pixel p.1.val p.2.val (!s.cell p.1 p.2)) = pixelEvents s x y n := by
  rw [spritePixels_eq, List.map_flatMap, pixelEvents]
  simp only [List.map_map]
  rfl

/-- The state after DXYN whose bytes exist. -/
def afterDraw (s : State) (x y n : Nibble) : State := (spritePixels s x y n).foldl State.plot (s.setV vf 0)

theorem exec_drw_of_le {s : State} (x y : Nibble) {n : Nibble} (h : n.toNat = 0 ∨ s.i.toNat + n.toNat - 1 ≤ 0xFFF) :
    exec (.drw x y n) s = .next (afterDraw s x y n) := by
  change execDrw x y n s = _
  rw [execDrw, Memory.read_of_inRange (by unfold memSize; omega)]
  rfl

theorem exec_drw_of_gt {s : State} (x y : Nibble) {n : Nibble} (hn : n.toNat ≠ 0) (h : 0xFFF < s.i.toNat + n.toNat - 1) :
    exec (.drw x y n) s = .next (faulted s .memrange) := by
  change execDrw x y n s = _
  rw [execDrw, Memory.read_eq_none hn (by unfold memSize; omega)]
  exact raise_eq_faulted s rfl

/-! ### What a draw leaves -/

section
variable (s : State) (x y n : Nibble)

theorem afterDraw_cell (cx : Fin 64) (cy : Fin 32) :
    (afterDraw s x y n).cell cx cy = true ↔ ¬ (s.cell cx cy = true ↔ covers s x y n cx cy) := by
  obtain ⟨hcell, -⟩ := State.plotAll_eq (spritePixels_nodup s x y n) (s.setV vf 0)
  have hkeep : (s.setV vf 0).cell cx cy = s.cell cx cy := rfl
  rw [afterDraw, hcell, hkeep, ← mem_spritePixels_iff]
  by_cases hmem : (cx, cy) ∈ spritePixels s x y n <;> simp [hmem]

/-- VF says whether a covered cell was 1. -/
theorem afterDraw_vf :
    (afterDraw s x y n).getV 15 = 1 ∧ (∃ cx cy, s.cell cx cy = true ∧ covers s x y n cx cy) ∨
    (afterDraw s x y n).getV 15 = 0 ∧ ∀ cx cy, s.cell cx cy = true → ¬ covers s x y n cx cy := by
  obtain ⟨-, hvf, -⟩ := State.plotAll_eq (spritePixels_nodup s x y n) (s.setV vf 0)
  by_cases hhit : ∃ p ∈ spritePixels s x y n, (s.setV vf 0).cell p.1 p.2 = true
  · rw [if_pos hhit] at hvf
    obtain ⟨⟨cx, cy⟩, hmem, hon⟩ := hhit
    exact .inl ⟨hvf, cx, cy, hon, (mem_spritePixels_iff s x y n cx cy).1 hmem⟩
  · rw [if_neg hhit, State.getV_setV_same] at hvf
    exact .inr ⟨hvf, fun cx cy hon hcov => hhit ⟨(cx, cy), (mem_spritePixels_iff s x y n cx cy).2 hcov, hon⟩⟩

theorem afterDraw_vf_of_hit (h : ∃ cx cy, s.cell cx cy = true ∧ covers s x y n cx cy) :
    (afterDraw s x y n).getV 15 = 1 := by
  obtain ⟨cx, cy, hon, hcov⟩ := h
  rcases afterDraw_vf s x y n with ⟨hvf, -⟩ | ⟨-, hnone⟩
  · exact hvf
  · exact absurd hcov (hnone cx cy hon)

theorem afterDraw_vf_of_no_hit (h : ∀ cx cy, s.cell cx cy = true → ¬ covers s x y n cx cy) :
    (afterDraw s x y n).getV 15 = 0 := by
  rcases afterDraw_vf s x y n with ⟨-, cx, cy, hon, hcov⟩ | ⟨hvf, -⟩
  · exact absurd hcov (h cx cy hon)
  · exact hvf

theorem afterDraw_getV_of_ne {r : Nibble} (hr : r ≠ 15) : (afterDraw s x y n).getV r = s.getV r := by
  obtain ⟨-, -, hother, -⟩ := State.plotAll_eq (spritePixels_nodup s x y n) (s.setV vf 0)
  exact (hother r hr).trans (State.getV_setV_of_ne s 0 (Ne.symm hr))

theorem afterDraw_out : (afterDraw s x y n).out = s.out ++ pixelEvents s x y n := by
  obtain ⟨-, -, -, hout⟩ := State.plotAll_eq (spritePixels_nodup s x y n) (s.setV vf 0)
  rw [← map_spritePixels_eq_pixelEvents]
  exact hout

theorem afterDraw_frame :
    afterDraw s x y n = { s with
      v := (afterDraw s x y n).v, fb := (afterDraw s x y n).fb, out := (afterDraw s x y n).out
      trace := (afterDraw s x y n).trace } :=
  State.plotAll_frame (spritePixels s x y n) (s.setV vf 0)

end

/-- Settles O41: the cells plotted are those covered, each once, so each is toggled once and gives one event. -/
theorem drawXorsSprite : Obligations.DrawXorsSprite := fun s x y n =>
  ⟨decodesTo_of_select (fieldsOf_ofNibbles 0xD x y n) rfl,
    fun h => ⟨afterDraw s x y n, exec_drw_of_le x y h, afterDraw_cell s x y n, afterDraw_vf_of_hit s x y n,
      afterDraw_vf_of_no_hit s x y n, fun _ hr => afterDraw_getV_of_ne s x y n hr, afterDraw_out s x y n,
      afterDraw_frame s x y n⟩,
    fun h => exec_drw_of_gt x y h.1 h.2⟩

/-! ### The same draw again -/

/-- A draw whose anchor is not VF leaves what the next one reads: the sprite and the anchor. -/
theorem covers_afterDraw {s : State} {x y : Nibble} (n : Nibble) (hx : x ≠ 15) (hy : y ≠ 15) (cx : Fin 64) (cy : Fin 32) :
    covers (afterDraw s x y n) x y n cx cy ↔ covers s x y n cx cy := by
  have hmem : (afterDraw s x y n).mem = s.mem := by rw [afterDraw_frame]
  have hi : (afterDraw s x y n).i = s.i := by rw [afterDraw_frame]
  rw [covers, covers, hmem, hi, afterDraw_getV_of_ne s x y n hx, afterDraw_getV_of_ne s x y n hy]

/-- Two equal draws toggle the same cells twice. -/
theorem afterDraw_twice_fb {s : State} {x y : Nibble} (n : Nibble) (hx : x ≠ 15) (hy : y ≠ 15) :
    (afterDraw (afterDraw s x y n) x y n).fb = s.fb := by
  refine State.fb_ext fun cx cy => Bool.eq_iff_iff.2 ?_
  rw [afterDraw_cell, afterDraw_cell, covers_afterDraw n hx hy]
  tauto

/-- Settles O42: after the first draw a covered cell is 1 exactly where it was 0. -/
theorem drawTwiceRestores : Obligations.DrawTwiceRestores := by
  intro s x y n hx hy h
  have hi : (afterDraw s x y n).i = s.i := by rw [afterDraw_frame]
  have hflip : ∀ cx cy, covers s x y n cx cy → ((afterDraw s x y n).cell cx cy = true ↔ s.cell cx cy = false) := by
    intro cx cy hcov
    rw [afterDraw_cell, ← Bool.not_eq_true]
    tauto
  refine ⟨_, _, exec_drw_of_le x y h, exec_drw_of_le x y (by rwa [hi]), afterDraw_twice_fb n hx hy, ?hit, ?noHit⟩
  case hit =>
    rintro ⟨cx, cy, hcov, hoff⟩
    exact afterDraw_vf_of_hit _ x y n ⟨cx, cy, (hflip cx cy hcov).2 hoff, (covers_afterDraw n hx hy cx cy).2 hcov⟩
  case noHit =>
    intro hall
    refine afterDraw_vf_of_no_hit _ x y n fun cx cy hon hcov => ?_
    have hcov' := (covers_afterDraw n hx hy cx cy).1 hcov
    have hoff := (hflip cx cy hcov').1 hon
    rw [hall cx cy hcov'] at hoff
    cases hoff

/-- A screen whose cells are all 1, and I at the glyph 0 of the font (R27), whose first row is F0. -/
def allOn : State := { State.reset with fb := Vector.replicate 32 (Vector.replicate 64 true), i := 0x050 }

theorem allOn_cell (cx : Fin 64) (cy : Fin 32) : allOn.cell cx cy = true := by
  simp only [State.cell, allOn, Vector.getElem_replicate]

/-- Refutes O43: on a screen that is all on, the first draw of the row F0 at the origin clears the four cells it covers, so
the second meets no cell that is 1 and leaves VF 0 (log entry 26). -/
theorem not_secondDrawAlwaysCollides : ¬ Obligations.SecondDrawAlwaysCollides := by
  intro h
  have hrange : (1 : Nibble).toNat = 0 ∨ allOn.i.toNat + (1 : Nibble).toNat - 1 ≤ 0xFFF := by decide
  have hcov : covers allOn 0 1 1 0 0 := ⟨0, by decide, 0, by decide, by decide, by decide, by decide⟩
  obtain ⟨t, u, ht, hu, -, -, hzero⟩ := drawTwiceRestores allOn 0 1 1 (by decide) (by decide) hrange
  have hvf : u.getV 15 = 1 := h allOn t u 0 1 1 (by decide) (by decide) hrange ht hu ⟨0, 0, hcov⟩
  rw [hzero fun cx cy _ => allOn_cell cx cy] at hvf
  exact absurd hvf (by decide)

end Sys2Proof.Machine
end
